-- ==== Sys2Proof/Word.lean ====
section
/-! DEFINITION. The two word types of the core (00_scope.md R9, R11): `u8` and `u16`. -/

namespace Sys2Proof

/-- An 8-bit value, `u8`: a register cell, a memory cell, an opcode byte, an immediate d8. -/
abbrev Byte := BitVec 8

/-- A 16-bit value, `u16`: a pair, SP, PC, an address, an immediate d16. -/
abbrev Word := BitVec 16

end Sys2Proof
end

