-- ==== Sys2Proof/Machine/Bits.lean ====
section
/-! DEFINITION. Composition and decomposition of 16-bit values (00_scope.md R10). -/

namespace Sys2Proof

/-- `compose16(high, low) = (high << 8) | low` (00_scope.md R10). -/
def compose16 (high low : Byte) : Word := high ++ low

/-- `hi8(v) = v[15:8]` (00_scope.md R10). -/
def hi8 (v : Word) : Byte := v.extractLsb' 8 8

/-- `lo8(v) = v[7:0]` (00_scope.md R10). -/
def lo8 (v : Word) : Byte := v.extractLsb' 0 8

end Sys2Proof
end

