-- ==== Sys2Proof/Syntax.lean ====
section
/-! DEFINITION. The instruction set as syntax: register, slot and pair names, the instruction families, and one constructor
of `Instr` for each of the 129 rows of spec/opcode_table.json (30_encoding.md R88 to R91). -/

namespace Sys2Proof

/-- The seven 8-bit storage cells (10_state.md R20). -/
inductive Reg8 where
  | b | c | d | e | h | l | a
  deriving DecidableEq, Repr

/-- A slot: one of the eight values of a 3-bit register field, seven cells and the indirect slot (10_state.md R21). -/
inductive Slot where
  /-- slots 0 to 5 and 7 -/
  | reg (r : Reg8)
  /-- slot 6, the memory byte at address HL -/
  | indHl
  deriving DecidableEq, Repr

/-- A pair: one of the four values of a 2-bit pair field (10_state.md R24). -/
inductive Pair where
  | bc | de | hl | sp
  deriving DecidableEq, Repr

/-- The pairs the accumulator loads and stores may address through: pair indices 0 and 1 only (30_encoding.md R82, format I). -/
inductive IndPair where
  | bc | de
  deriving DecidableEq, Repr

/-- The families of the Opcode Table (30_encoding.md R88) and the unimplemented bytes (R91). -/
inductive Family where
  /-- `NOP` -/
  | nop
  /-- `HALT` -/
  | halt
  /-- `LD rr,d16` -/
  | ldPairImm
  /-- byte 08, wired as `LD SP,d16` -/
  | ldSpAlias
  /-- `LD (rr),A` -/
  | storeA
  /-- `LD A,(rr)` -/
  | loadA
  /-- `INC rr` -/
  | incPair
  /-- `DEC rr` -/
  | decPair
  /-- `ADD HL,rr` -/
  | addHl
  /-- `INC r` -/
  | inc8
  /-- `DEC r` -/
  | dec8
  /-- `LD r,d8` -/
  | ldImm8
  /-- `LD r,r'` -/
  | move8
  /-- the bytes with no table row -/
  | unimplemented
  deriving DecidableEq, Repr

/-- One constructor per row of spec/opcode_table.json, in the table's order. Immediates are the operands the handler fetches
after the opcode byte; `unimpl80ToFF` carries its whole opcode byte. -/
inductive Instr where
  /-- `NOP`, byte 00 -/
  | nop
  /-- `LD BC,d16`, byte 01 -/
  | ldBcD16 (d16 : Word)
  /-- `LD (BC),A`, byte 02 -/
  | ldIndBcA
  /-- `INC BC`, byte 03 -/
  | incBc
  /-- `INC B`, byte 04 -/
  | incB
  /-- `DEC B`, byte 05 -/
  | decB
  /-- `LD B,d8`, byte 06 -/
  | ldBD8 (d8 : Byte)
  /-- `UNIMPL 0x07`, byte 07 -/
  | unimpl07
  /-- `LD SP,d16 (alias byte 08)`, byte 08 -/
  | ldSpD16Alias (d16 : Word)
  /-- `ADD HL,BC`, byte 09 -/
  | addHlBc
  /-- `LD A,(BC)`, byte 0A -/
  | ldAIndBc
  /-- `DEC BC`, byte 0B -/
  | decBc
  /-- `INC C`, byte 0C -/
  | incC
  /-- `DEC C`, byte 0D -/
  | decC
  /-- `LD C,d8`, byte 0E -/
  | ldCD8 (d8 : Byte)
  /-- `UNIMPL 0x0F`, byte 0F -/
  | unimpl0F
  /-- `UNIMPL 0x10`, byte 10 -/
  | unimpl10
  /-- `LD DE,d16`, byte 11 -/
  | ldDeD16 (d16 : Word)
  /-- `LD (DE),A`, byte 12 -/
  | ldIndDeA
  /-- `INC DE`, byte 13 -/
  | incDe
  /-- `INC D`, byte 14 -/
  | incD
  /-- `DEC D`, byte 15 -/
  | decD
  /-- `LD D,d8`, byte 16 -/
  | ldDD8 (d8 : Byte)
  /-- `UNIMPL 0x17`, byte 17 -/
  | unimpl17
  /-- `UNIMPL 0x18`, byte 18 -/
  | unimpl18
  /-- `ADD HL,DE`, byte 19 -/
  | addHlDe
  /-- `LD A,(DE)`, byte 1A -/
  | ldAIndDe
  /-- `DEC DE`, byte 1B -/
  | decDe
  /-- `INC E`, byte 1C -/
  | incE
  /-- `DEC E`, byte 1D -/
  | decE
  /-- `LD E,d8`, byte 1E -/
  | ldED8 (d8 : Byte)
  /-- `UNIMPL 0x1F`, byte 1F -/
  | unimpl1F
  /-- `UNIMPL 0x20`, byte 20 -/
  | unimpl20
  /-- `LD HL,d16`, byte 21 -/
  | ldHlD16 (d16 : Word)
  /-- `UNIMPL 0x22`, byte 22 -/
  | unimpl22
  /-- `INC HL`, byte 23 -/
  | incHl
  /-- `INC H`, byte 24 -/
  | incH
  /-- `DEC H`, byte 25 -/
  | decH
  /-- `LD H,d8`, byte 26 -/
  | ldHD8 (d8 : Byte)
  /-- `UNIMPL 0x27`, byte 27 -/
  | unimpl27
  /-- `UNIMPL 0x28`, byte 28 -/
  | unimpl28
  /-- `ADD HL,HL`, byte 29 -/
  | addHlHl
  /-- `UNIMPL 0x2A`, byte 2A -/
  | unimpl2A
  /-- `DEC HL`, byte 2B -/
  | decHl
  /-- `INC L`, byte 2C -/
  | incL
  /-- `DEC L`, byte 2D -/
  | decL
  /-- `LD L,d8`, byte 2E -/
  | ldLD8 (d8 : Byte)
  /-- `UNIMPL 0x2F`, byte 2F -/
  | unimpl2F
  /-- `UNIMPL 0x30`, byte 30 -/
  | unimpl30
  /-- `LD SP,d16`, byte 31 -/
  | ldSpD16 (d16 : Word)
  /-- `UNIMPL 0x32`, byte 32 -/
  | unimpl32
  /-- `INC SP`, byte 33 -/
  | incSp
  /-- `INC (HL)`, byte 34 -/
  | incIndHl
  /-- `DEC (HL)`, byte 35 -/
  | decIndHl
  /-- `LD (HL),d8`, byte 36 -/
  | ldIndHlD8 (d8 : Byte)
  /-- `UNIMPL 0x37`, byte 37 -/
  | unimpl37
  /-- `UNIMPL 0x38`, byte 38 -/
  | unimpl38
  /-- `ADD HL,SP`, byte 39 -/
  | addHlSp
  /-- `UNIMPL 0x3A`, byte 3A -/
  | unimpl3A
  /-- `DEC SP`, byte 3B -/
  | decSp
  /-- `INC A`, byte 3C -/
  | incA
  /-- `DEC A`, byte 3D -/
  | decA
  /-- `LD A,d8`, byte 3E -/
  | ldAD8 (d8 : Byte)
  /-- `UNIMPL 0x3F`, byte 3F -/
  | unimpl3F
  /-- `LD B,B`, byte 40 -/
  | ldBB
  /-- `LD B,C`, byte 41 -/
  | ldBC
  /-- `LD B,D`, byte 42 -/
  | ldBD
  /-- `LD B,E`, byte 43 -/
  | ldBE
  /-- `LD B,H`, byte 44 -/
  | ldBH
  /-- `LD B,L`, byte 45 -/
  | ldBL
  /-- `UNIMPL 0x46`, byte 46 -/
  | unimpl46
  /-- `LD B,A`, byte 47 -/
  | ldBA
  /-- `LD C,B`, byte 48 -/
  | ldCB
  /-- `LD C,C`, byte 49 -/
  | ldCC
  /-- `LD C,D`, byte 4A -/
  | ldCD
  /-- `LD C,E`, byte 4B -/
  | ldCE
  /-- `LD C,H`, byte 4C -/
  | ldCH
  /-- `LD C,L`, byte 4D -/
  | ldCL
  /-- `UNIMPL 0x4E`, byte 4E -/
  | unimpl4E
  /-- `LD C,A`, byte 4F -/
  | ldCA
  /-- `LD D,B`, byte 50 -/
  | ldDB
  /-- `LD D,C`, byte 51 -/
  | ldDC
  /-- `LD D,D`, byte 52 -/
  | ldDD
  /-- `LD D,E`, byte 53 -/
  | ldDE
  /-- `LD D,H`, byte 54 -/
  | ldDH
  /-- `LD D,L`, byte 55 -/
  | ldDL
  /-- `UNIMPL 0x56`, byte 56 -/
  | unimpl56
  /-- `LD D,A`, byte 57 -/
  | ldDA
  /-- `LD E,B`, byte 58 -/
  | ldEB
  /-- `LD E,C`, byte 59 -/
  | ldEC
  /-- `LD E,D`, byte 5A -/
  | ldED
  /-- `LD E,E`, byte 5B -/
  | ldEE
  /-- `LD E,H`, byte 5C -/
  | ldEH
  /-- `LD E,L`, byte 5D -/
  | ldEL
  /-- `UNIMPL 0x5E`, byte 5E -/
  | unimpl5E
  /-- `LD E,A`, byte 5F -/
  | ldEA
  /-- `LD H,B`, byte 60 -/
  | ldHB
  /-- `LD H,C`, byte 61 -/
  | ldHC
  /-- `LD H,D`, byte 62 -/
  | ldHD
  /-- `LD H,E`, byte 63 -/
  | ldHE
  /-- `LD H,H`, byte 64 -/
  | ldHH
  /-- `LD H,L`, byte 65 -/
  | ldHL
  /-- `UNIMPL 0x66`, byte 66 -/
  | unimpl66
  /-- `LD H,A`, byte 67 -/
  | ldHA
  /-- `LD L,B`, byte 68 -/
  | ldLB
  /-- `LD L,C`, byte 69 -/
  | ldLC
  /-- `LD L,D`, byte 6A -/
  | ldLD
  /-- `LD L,E`, byte 6B -/
  | ldLE
  /-- `LD L,H`, byte 6C -/
  | ldLH
  /-- `LD L,L`, byte 6D -/
  | ldLL
  /-- `UNIMPL 0x6E`, byte 6E -/
  | unimpl6E
  /-- `LD L,A`, byte 6F -/
  | ldLA
  /-- `UNIMPL 0x70`, byte 70 -/
  | unimpl70
  /-- `UNIMPL 0x71`, byte 71 -/
  | unimpl71
  /-- `UNIMPL 0x72`, byte 72 -/
  | unimpl72
  /-- `UNIMPL 0x73`, byte 73 -/
  | unimpl73
  /-- `UNIMPL 0x74`, byte 74 -/
  | unimpl74
  /-- `UNIMPL 0x75`, byte 75 -/
  | unimpl75
  /-- `HALT`, byte 76 -/
  | halt
  /-- `UNIMPL 0x77`, byte 77 -/
  | unimpl77
  /-- `LD A,B`, byte 78 -/
  | ldAB
  /-- `LD A,C`, byte 79 -/
  | ldAC
  /-- `LD A,D`, byte 7A -/
  | ldAD
  /-- `LD A,E`, byte 7B -/
  | ldAE
  /-- `LD A,H`, byte 7C -/
  | ldAH
  /-- `LD A,L`, byte 7D -/
  | ldAL
  /-- `UNIMPL 0x7E`, byte 7E -/
  | unimpl7E
  /-- `LD A,A`, byte 7F -/
  | ldAA
  /-- `UNIMPL 0x80..0xFF`, byte 80 to FF -/
  | unimpl80ToFF (b : Byte)
  deriving DecidableEq, Repr

end Sys2Proof
end

