-- ==== Sys2Proof/WellFormed.lean ====
section
/-! DEFINITION. Which terms of `Instr` are instructions. Every operand is in range by its type (30_encoding.md R84) but for the
byte that `unimpl80ToFF` carries, which must be one of 0x80 to 0xFF (30_encoding.md R91). -/

namespace Sys2Proof

/-- The one check: the byte of the row `1bbbbbbb` has bit 7 set. Every other constructor is well formed as it stands. -/
def Instr.wf : Instr → Bool
  | .unimpl80ToFF b => b.msb
  | .nop | .ldBcD16 _ | .ldIndBcA | .incBc | .incB | .decB | .ldBD8 _ | .unimpl07 | .ldSpD16Alias _ | .addHlBc |
    .ldAIndBc | .decBc | .incC | .decC | .ldCD8 _ | .unimpl0F | .unimpl10 | .ldDeD16 _ | .ldIndDeA | .incDe | .incD |
    .decD | .ldDD8 _ | .unimpl17 | .unimpl18 | .addHlDe | .ldAIndDe | .decDe | .incE | .decE | .ldED8 _ | .unimpl1F |
    .unimpl20 | .ldHlD16 _ | .unimpl22 | .incHl | .incH | .decH | .ldHD8 _ | .unimpl27 | .unimpl28 | .addHlHl |
    .unimpl2A | .decHl | .incL | .decL | .ldLD8 _ | .unimpl2F | .unimpl30 | .ldSpD16 _ | .unimpl32 | .incSp |
    .incIndHl | .decIndHl | .ldIndHlD8 _ | .unimpl37 | .unimpl38 | .addHlSp | .unimpl3A | .decSp | .incA | .decA |
    .ldAD8 _ | .unimpl3F | .ldBB | .ldBC | .ldBD | .ldBE | .ldBH | .ldBL | .unimpl46 | .ldBA | .ldCB | .ldCC |
    .ldCD | .ldCE | .ldCH | .ldCL | .unimpl4E | .ldCA | .ldDB | .ldDC | .ldDD | .ldDE | .ldDH | .ldDL | .unimpl56 |
    .ldDA | .ldEB | .ldEC | .ldED | .ldEE | .ldEH | .ldEL | .unimpl5E | .ldEA | .ldHB | .ldHC | .ldHD | .ldHE |
    .ldHH | .ldHL | .unimpl66 | .ldHA | .ldLB | .ldLC | .ldLD | .ldLE | .ldLH | .ldLL | .unimpl6E | .ldLA |
    .unimpl70 | .unimpl71 | .unimpl72 | .unimpl73 | .unimpl74 | .unimpl75 | .halt | .unimpl77 | .ldAB | .ldAC |
    .ldAD | .ldAE | .ldAH | .ldAL | .unimpl7E | .ldAA => true

end Sys2Proof
end

