-- ==== Sys2Proof/Decode.lean ====
section
/-! DEFINITION. The decoder, by whole opcode byte as spec/opcode_table.json lists it (30_encoding.md R87 to R91, R98); the
instructions of each family by their operands; the encoder, written from the formats and field positions of R82 and R83; and
the decoder by format, which R98 says must agree with the first. The numeric bytes are the spec's decision D1 (log 1). -/

namespace Sys2Proof

/-- What an opcode byte selects: an instruction, or one that still takes an immediate (30_encoding.md R80, R85, R86). -/
inductive Form where
  /-- length 1: no immediate -/
  | plain (i : Instr)
  /-- length 2: one immediate byte d8 follows -/
  | imm8 (k : Byte → Instr)
  /-- length 3: the two bytes of a d16 follow, low half first -/
  | imm16 (k : Word → Instr)

/-- The length of an instruction, a function of its opcode byte alone (30_encoding.md R80). -/
def Form.length : Form → Nat
  | .plain _ => 1
  | .imm8 _ => 2
  | .imm16 _ => 3

/-- Why a list of bytes is no instruction: it ends too early. No byte is rejected (30_encoding.md R92). -/
inductive DecodeError where
  /-- there is no opcode byte -/
  | noOpcode
  /-- the opcode byte's immediate is not all there -/
  | missingImmediate
  deriving DecidableEq, Repr

/-- The opcode map byte by byte (30_encoding.md R90, R91), total on every byte (R92). -/
def opcodeForm (opc : Byte) : Form :=
  match opc.toNat with
  | 0x00 => .plain .nop
  | 0x01 => .imm16 .ldBcD16
  | 0x02 => .plain .ldIndBcA
  | 0x03 => .plain .incBc
  | 0x04 => .plain .incB
  | 0x05 => .plain .decB
  | 0x06 => .imm8 .ldBD8
  | 0x07 => .plain .unimpl07
  | 0x08 => .imm16 .ldSpD16Alias
  | 0x09 => .plain .addHlBc
  | 0x0A => .plain .ldAIndBc
  | 0x0B => .plain .decBc
  | 0x0C => .plain .incC
  | 0x0D => .plain .decC
  | 0x0E => .imm8 .ldCD8
  | 0x0F => .plain .unimpl0F
  | 0x10 => .plain .unimpl10
  | 0x11 => .imm16 .ldDeD16
  | 0x12 => .plain .ldIndDeA
  | 0x13 => .plain .incDe
  | 0x14 => .plain .incD
  | 0x15 => .plain .decD
  | 0x16 => .imm8 .ldDD8
  | 0x17 => .plain .unimpl17
  | 0x18 => .plain .unimpl18
  | 0x19 => .plain .addHlDe
  | 0x1A => .plain .ldAIndDe
  | 0x1B => .plain .decDe
  | 0x1C => .plain .incE
  | 0x1D => .plain .decE
  | 0x1E => .imm8 .ldED8
  | 0x1F => .plain .unimpl1F
  | 0x20 => .plain .unimpl20
  | 0x21 => .imm16 .ldHlD16
  | 0x22 => .plain .unimpl22
  | 0x23 => .plain .incHl
  | 0x24 => .plain .incH
  | 0x25 => .plain .decH
  | 0x26 => .imm8 .ldHD8
  | 0x27 => .plain .unimpl27
  | 0x28 => .plain .unimpl28
  | 0x29 => .plain .addHlHl
  | 0x2A => .plain .unimpl2A
  | 0x2B => .plain .decHl
  | 0x2C => .plain .incL
  | 0x2D => .plain .decL
  | 0x2E => .imm8 .ldLD8
  | 0x2F => .plain .unimpl2F
  | 0x30 => .plain .unimpl30
  | 0x31 => .imm16 .ldSpD16
  | 0x32 => .plain .unimpl32
  | 0x33 => .plain .incSp
  | 0x34 => .plain .incIndHl
  | 0x35 => .plain .decIndHl
  | 0x36 => .imm8 .ldIndHlD8
  | 0x37 => .plain .unimpl37
  | 0x38 => .plain .unimpl38
  | 0x39 => .plain .addHlSp
  | 0x3A => .plain .unimpl3A
  | 0x3B => .plain .decSp
  | 0x3C => .plain .incA
  | 0x3D => .plain .decA
  | 0x3E => .imm8 .ldAD8
  | 0x3F => .plain .unimpl3F
  | 0x40 => .plain .ldBB
  | 0x41 => .plain .ldBC
  | 0x42 => .plain .ldBD
  | 0x43 => .plain .ldBE
  | 0x44 => .plain .ldBH
  | 0x45 => .plain .ldBL
  | 0x46 => .plain .unimpl46
  | 0x47 => .plain .ldBA
  | 0x48 => .plain .ldCB
  | 0x49 => .plain .ldCC
  | 0x4A => .plain .ldCD
  | 0x4B => .plain .ldCE
  | 0x4C => .plain .ldCH
  | 0x4D => .plain .ldCL
  | 0x4E => .plain .unimpl4E
  | 0x4F => .plain .ldCA
  | 0x50 => .plain .ldDB
  | 0x51 => .plain .ldDC
  | 0x52 => .plain .ldDD
  | 0x53 => .plain .ldDE
  | 0x54 => .plain .ldDH
  | 0x55 => .plain .ldDL
  | 0x56 => .plain .unimpl56
  | 0x57 => .plain .ldDA
  | 0x58 => .plain .ldEB
  | 0x59 => .plain .ldEC
  | 0x5A => .plain .ldED
  | 0x5B => .plain .ldEE
  | 0x5C => .plain .ldEH
  | 0x5D => .plain .ldEL
  | 0x5E => .plain .unimpl5E
  | 0x5F => .plain .ldEA
  | 0x60 => .plain .ldHB
  | 0x61 => .plain .ldHC
  | 0x62 => .plain .ldHD
  | 0x63 => .plain .ldHE
  | 0x64 => .plain .ldHH
  | 0x65 => .plain .ldHL
  | 0x66 => .plain .unimpl66
  | 0x67 => .plain .ldHA
  | 0x68 => .plain .ldLB
  | 0x69 => .plain .ldLC
  | 0x6A => .plain .ldLD
  | 0x6B => .plain .ldLE
  | 0x6C => .plain .ldLH
  | 0x6D => .plain .ldLL
  | 0x6E => .plain .unimpl6E
  | 0x6F => .plain .ldLA
  | 0x70 => .plain .unimpl70
  | 0x71 => .plain .unimpl71
  | 0x72 => .plain .unimpl72
  | 0x73 => .plain .unimpl73
  | 0x74 => .plain .unimpl74
  | 0x75 => .plain .unimpl75
  | 0x76 => .plain .halt
  | 0x77 => .plain .unimpl77
  | 0x78 => .plain .ldAB
  | 0x79 => .plain .ldAC
  | 0x7A => .plain .ldAD
  | 0x7B => .plain .ldAE
  | 0x7C => .plain .ldAH
  | 0x7D => .plain .ldAL
  | 0x7E => .plain .unimpl7E
  | 0x7F => .plain .ldAA
  | _ => .plain (.unimpl80ToFF opc)

/-- A form with the bytes after its opcode byte: the instruction, and the bytes left over (30_encoding.md R85, R86). -/
def Form.complete : Form → List Byte → Except DecodeError (Instr × List Byte)
  | .plain i, rest => .ok (i, rest)
  | .imm8 k, v :: rest => .ok (k v, rest)
  | .imm16 k, lo :: hi :: rest => .ok (k (compose16 hi lo), rest)
  | .imm8 _, [] | .imm16 _, [] | .imm16 _, [_] => .error .missingImmediate

/-- The instruction at the head of a list of bytes, and the bytes after it. -/
def decode : List Byte → Except DecodeError (Instr × List Byte)
  | [] => .error .noOpcode
  | opc :: rest => (opcodeForm opc).complete rest

/-- Byte `n` of an instruction whose bits are `w`, bit 0 the least significant bit of the first byte. -/
def tableByte (nbits w n : Nat) : Byte := BitVec.ofNat 8 (w % 2 ^ nbits / 256 ^ n)

/-- The bytes, as stored, of an instruction given as a number, up to the longest instruction (30_encoding.md R80: 3 bytes);
every bit above `nbits` is 0. -/
def tableBytes (nbits w : Nat) : List Byte := [tableByte nbits w 0, tableByte nbits w 1, tableByte nbits w 2]

/-- What the decoder reads from an instruction whose bits are `w`. -/
def decodeTableWord (nbits w : Nat) : Option Instr :=
  match decode (tableBytes nbits w) with
  | .ok (i, _) => some i
  | .error _ => none

/-! ## Operand fields -/

/-- The slot index of a cell (10_state.md R21). -/
def Reg8.index : Reg8 → BitVec 3
  | .b => 0
  | .c => 1
  | .d => 2
  | .e => 3
  | .h => 4
  | .l => 5
  | .a => 7

/-- The slot index of a slot (10_state.md R21). -/
def Slot.index : Slot → BitVec 3
  | .reg r => r.index
  | .indHl => 6

/-- The slot a 3-bit field names (10_state.md R21, 30_encoding.md R83). -/
def slotOf (field : BitVec 3) : Slot :=
  match field.toNat with
  | 0 => .reg .b
  | 1 => .reg .c
  | 2 => .reg .d
  | 3 => .reg .e
  | 4 => .reg .h
  | 5 => .reg .l
  | 6 => .indHl
  | _ => .reg .a

/-- The pair index of a pair (10_state.md R24). -/
def Pair.index : Pair → BitVec 2
  | .bc => 0
  | .de => 1
  | .hl => 2
  | .sp => 3

/-- The pair a 2-bit field names (10_state.md R24, 30_encoding.md R83). -/
def pairOf (field : BitVec 2) : Pair :=
  match field.toNat with
  | 0 => .bc
  | 1 => .de
  | 2 => .hl
  | _ => .sp

/-- The 1-bit pair field of format I (30_encoding.md R82). -/
def IndPair.index : IndPair → BitVec 1
  | .bc => 0
  | .de => 1

/-- The address pair a 1-bit field names (30_encoding.md R82). -/
def indPairOf (field : BitVec 1) : IndPair := if field = 0 then .bc else .de

/-! ## The instructions of a family by their operands (30_encoding.md R88) -/

/-- `LD rr,d16`: `ldBcD16`, `ldDeD16`, `ldHlD16`, `ldSpD16` (R120 to R123). -/
def ldPairImmOf : Pair → Word → Instr
  | .bc, v => .ldBcD16 v
  | .de, v => .ldDeD16 v
  | .hl, v => .ldHlD16 v
  | .sp, v => .ldSpD16 v

/-- `LD (rr),A`: `ldIndBcA`, `ldIndDeA` (R130, R131). -/
def storeAOf : IndPair → Instr
  | .bc => .ldIndBcA
  | .de => .ldIndDeA

/-- `LD A,(rr)`: `ldAIndBc`, `ldAIndDe` (R132, R133). -/
def loadAOf : IndPair → Instr
  | .bc => .ldAIndBc
  | .de => .ldAIndDe

/-- `INC rr`: `incBc`, `incDe`, `incHl`, `incSp` (R140 to R143). -/
def incPairOf : Pair → Instr
  | .bc => .incBc
  | .de => .incDe
  | .hl => .incHl
  | .sp => .incSp

/-- `DEC rr`: `decBc`, `decDe`, `decHl`, `decSp` (R144 to R147). -/
def decPairOf : Pair → Instr
  | .bc => .decBc
  | .de => .decDe
  | .hl => .decHl
  | .sp => .decSp

/-- `ADD HL,rr`: `addHlBc`, `addHlDe`, `addHlHl`, `addHlSp` (R148 to R151). -/
def addHlOf : Pair → Instr
  | .bc => .addHlBc
  | .de => .addHlDe
  | .hl => .addHlHl
  | .sp => .addHlSp

/-- `INC r`: `incB`, `incC`, `incD`, `incE`, `incH`, `incL`, `incIndHl`, `incA` (R160, R161). -/
def inc8Of : Slot → Instr
  | .reg .b => .incB
  | .reg .c => .incC
  | .reg .d => .incD
  | .reg .e => .incE
  | .reg .h => .incH
  | .reg .l => .incL
  | .indHl => .incIndHl
  | .reg .a => .incA

/-- `DEC r`: `decB`, `decC`, `decD`, `decE`, `decH`, `decL`, `decIndHl`, `decA` (R162, R163). -/
def dec8Of : Slot → Instr
  | .reg .b => .decB
  | .reg .c => .decC
  | .reg .d => .decD
  | .reg .e => .decE
  | .reg .h => .decH
  | .reg .l => .decL
  | .indHl => .decIndHl
  | .reg .a => .decA

/-- `LD r,d8`: `ldBD8`, `ldCD8`, `ldDD8`, `ldED8`, `ldHD8`, `ldLD8`, `ldIndHlD8`, `ldAD8` (R164, R165). -/
def ldImm8Of : Slot → Byte → Instr
  | .reg .b, v => .ldBD8 v
  | .reg .c, v => .ldCD8 v
  | .reg .d, v => .ldDD8 v
  | .reg .e, v => .ldED8 v
  | .reg .h, v => .ldHD8 v
  | .reg .l, v => .ldLD8 v
  | .indHl, v => .ldIndHlD8 v
  | .reg .a, v => .ldAD8 v

/-- `LD r,r'`, destination then source: the 49 moves (R180, 30_encoding.md R89). -/
def move8Of : Reg8 → Reg8 → Instr
  | .b, .b => .ldBB
  | .b, .c => .ldBC
  | .b, .d => .ldBD
  | .b, .e => .ldBE
  | .b, .h => .ldBH
  | .b, .l => .ldBL
  | .b, .a => .ldBA
  | .c, .b => .ldCB
  | .c, .c => .ldCC
  | .c, .d => .ldCD
  | .c, .e => .ldCE
  | .c, .h => .ldCH
  | .c, .l => .ldCL
  | .c, .a => .ldCA
  | .d, .b => .ldDB
  | .d, .c => .ldDC
  | .d, .d => .ldDD
  | .d, .e => .ldDE
  | .d, .h => .ldDH
  | .d, .l => .ldDL
  | .d, .a => .ldDA
  | .e, .b => .ldEB
  | .e, .c => .ldEC
  | .e, .d => .ldED
  | .e, .e => .ldEE
  | .e, .h => .ldEH
  | .e, .l => .ldEL
  | .e, .a => .ldEA
  | .h, .b => .ldHB
  | .h, .c => .ldHC
  | .h, .d => .ldHD
  | .h, .e => .ldHE
  | .h, .h => .ldHH
  | .h, .l => .ldHL
  | .h, .a => .ldHA
  | .l, .b => .ldLB
  | .l, .c => .ldLC
  | .l, .d => .ldLD
  | .l, .e => .ldLE
  | .l, .h => .ldLH
  | .l, .l => .ldLL
  | .l, .a => .ldLA
  | .a, .b => .ldAB
  | .a, .c => .ldAC
  | .a, .d => .ldAD
  | .a, .e => .ldAE
  | .a, .h => .ldAH
  | .a, .l => .ldAL
  | .a, .a => .ldAA

/-- The row of an unimplemented byte (30_encoding.md R91, R190): its own row below 0x80, the row `1bbbbbbb` from 0x80 on. -/
def unimplOf (opc : Byte) : Instr :=
  match opc.toNat with
  | 0x07 => .unimpl07
  | 0x0F => .unimpl0F
  | 0x10 => .unimpl10
  | 0x17 => .unimpl17
  | 0x18 => .unimpl18
  | 0x1F => .unimpl1F
  | 0x20 => .unimpl20
  | 0x22 => .unimpl22
  | 0x27 => .unimpl27
  | 0x28 => .unimpl28
  | 0x2A => .unimpl2A
  | 0x2F => .unimpl2F
  | 0x30 => .unimpl30
  | 0x32 => .unimpl32
  | 0x37 => .unimpl37
  | 0x38 => .unimpl38
  | 0x3A => .unimpl3A
  | 0x3F => .unimpl3F
  | 0x46 => .unimpl46
  | 0x4E => .unimpl4E
  | 0x56 => .unimpl56
  | 0x5E => .unimpl5E
  | 0x66 => .unimpl66
  | 0x6E => .unimpl6E
  | 0x70 => .unimpl70
  | 0x71 => .unimpl71
  | 0x72 => .unimpl72
  | 0x73 => .unimpl73
  | 0x74 => .unimpl74
  | 0x75 => .unimpl75
  | 0x77 => .unimpl77
  | 0x7E => .unimpl7E
  | _ => .unimpl80ToFF opc

/-! ## The encoder, by format (30_encoding.md R82) -/

/-- Format P, `00ppffff`. -/
def formatP (p : Pair) (function : BitVec 4) : Byte := 0b00#2 ++ p.index ++ function

/-- Format I, `000pd010`. -/
def formatI (p : IndPair) (direction : BitVec 1) : Byte := 0b000#3 ++ p.index ++ direction ++ 0b010#3

/-- Format S, `00sssfff`. -/
def formatS (k : Slot) (function : BitVec 3) : Byte := 0b00#2 ++ k.index ++ function

/-- Format M, `01dddsss`. -/
def formatM (dst src : Slot) : Byte := 0b01#2 ++ dst.index ++ src.index

/-- The opcode byte followed by a d16, low half first (30_encoding.md R86). -/
def withD16 (opc : Byte) (v : Word) : List Byte := [opc, lo8 v, hi8 v]

/-- The bytes of an instruction, from its format and fields; an unimplemented byte is its own encoding (R190). -/
def encode : Instr → List Byte
  | .nop => [0b00000000#8]
  | .halt => [0b01110110#8]
  | .ldSpD16Alias v => withD16 0b00001000#8 v
  | .ldBcD16 v => withD16 (formatP .bc 0b0001#4) v
  | .ldDeD16 v => withD16 (formatP .de 0b0001#4) v
  | .ldHlD16 v => withD16 (formatP .hl 0b0001#4) v
  | .ldSpD16 v => withD16 (formatP .sp 0b0001#4) v
  | .ldIndBcA => [formatI .bc 0#1]
  | .ldIndDeA => [formatI .de 0#1]
  | .ldAIndBc => [formatI .bc 1#1]
  | .ldAIndDe => [formatI .de 1#1]
  | .incBc => [formatP .bc 0b0011#4]
  | .incDe => [formatP .de 0b0011#4]
  | .incHl => [formatP .hl 0b0011#4]
  | .incSp => [formatP .sp 0b0011#4]
  | .addHlBc => [formatP .bc 0b1001#4]
  | .addHlDe => [formatP .de 0b1001#4]
  | .addHlHl => [formatP .hl 0b1001#4]
  | .addHlSp => [formatP .sp 0b1001#4]
  | .decBc => [formatP .bc 0b1011#4]
  | .decDe => [formatP .de 0b1011#4]
  | .decHl => [formatP .hl 0b1011#4]
  | .decSp => [formatP .sp 0b1011#4]
  | .incB => [formatS (.reg .b) 0b100#3]
  | .incC => [formatS (.reg .c) 0b100#3]
  | .incD => [formatS (.reg .d) 0b100#3]
  | .incE => [formatS (.reg .e) 0b100#3]
  | .incH => [formatS (.reg .h) 0b100#3]
  | .incL => [formatS (.reg .l) 0b100#3]
  | .incIndHl => [formatS .indHl 0b100#3]
  | .incA => [formatS (.reg .a) 0b100#3]
  | .decB => [formatS (.reg .b) 0b101#3]
  | .decC => [formatS (.reg .c) 0b101#3]
  | .decD => [formatS (.reg .d) 0b101#3]
  | .decE => [formatS (.reg .e) 0b101#3]
  | .decH => [formatS (.reg .h) 0b101#3]
  | .decL => [formatS (.reg .l) 0b101#3]
  | .decIndHl => [formatS .indHl 0b101#3]
  | .decA => [formatS (.reg .a) 0b101#3]
  | .ldBD8 v => [formatS (.reg .b) 0b110#3, v]
  | .ldCD8 v => [formatS (.reg .c) 0b110#3, v]
  | .ldDD8 v => [formatS (.reg .d) 0b110#3, v]
  | .ldED8 v => [formatS (.reg .e) 0b110#3, v]
  | .ldHD8 v => [formatS (.reg .h) 0b110#3, v]
  | .ldLD8 v => [formatS (.reg .l) 0b110#3, v]
  | .ldIndHlD8 v => [formatS .indHl 0b110#3, v]
  | .ldAD8 v => [formatS (.reg .a) 0b110#3, v]
  | .ldBB => [formatM (.reg .b) (.reg .b)]
  | .ldBC => [formatM (.reg .b) (.reg .c)]
  | .ldBD => [formatM (.reg .b) (.reg .d)]
  | .ldBE => [formatM (.reg .b) (.reg .e)]
  | .ldBH => [formatM (.reg .b) (.reg .h)]
  | .ldBL => [formatM (.reg .b) (.reg .l)]
  | .ldBA => [formatM (.reg .b) (.reg .a)]
  | .ldCB => [formatM (.reg .c) (.reg .b)]
  | .ldCC => [formatM (.reg .c) (.reg .c)]
  | .ldCD => [formatM (.reg .c) (.reg .d)]
  | .ldCE => [formatM (.reg .c) (.reg .e)]
  | .ldCH => [formatM (.reg .c) (.reg .h)]
  | .ldCL => [formatM (.reg .c) (.reg .l)]
  | .ldCA => [formatM (.reg .c) (.reg .a)]
  | .ldDB => [formatM (.reg .d) (.reg .b)]
  | .ldDC => [formatM (.reg .d) (.reg .c)]
  | .ldDD => [formatM (.reg .d) (.reg .d)]
  | .ldDE => [formatM (.reg .d) (.reg .e)]
  | .ldDH => [formatM (.reg .d) (.reg .h)]
  | .ldDL => [formatM (.reg .d) (.reg .l)]
  | .ldDA => [formatM (.reg .d) (.reg .a)]
  | .ldEB => [formatM (.reg .e) (.reg .b)]
  | .ldEC => [formatM (.reg .e) (.reg .c)]
  | .ldED => [formatM (.reg .e) (.reg .d)]
  | .ldEE => [formatM (.reg .e) (.reg .e)]
  | .ldEH => [formatM (.reg .e) (.reg .h)]
  | .ldEL => [formatM (.reg .e) (.reg .l)]
  | .ldEA => [formatM (.reg .e) (.reg .a)]
  | .ldHB => [formatM (.reg .h) (.reg .b)]
  | .ldHC => [formatM (.reg .h) (.reg .c)]
  | .ldHD => [formatM (.reg .h) (.reg .d)]
  | .ldHE => [formatM (.reg .h) (.reg .e)]
  | .ldHH => [formatM (.reg .h) (.reg .h)]
  | .ldHL => [formatM (.reg .h) (.reg .l)]
  | .ldHA => [formatM (.reg .h) (.reg .a)]
  | .ldLB => [formatM (.reg .l) (.reg .b)]
  | .ldLC => [formatM (.reg .l) (.reg .c)]
  | .ldLD => [formatM (.reg .l) (.reg .d)]
  | .ldLE => [formatM (.reg .l) (.reg .e)]
  | .ldLH => [formatM (.reg .l) (.reg .h)]
  | .ldLL => [formatM (.reg .l) (.reg .l)]
  | .ldLA => [formatM (.reg .l) (.reg .a)]
  | .ldAB => [formatM (.reg .a) (.reg .b)]
  | .ldAC => [formatM (.reg .a) (.reg .c)]
  | .ldAD => [formatM (.reg .a) (.reg .d)]
  | .ldAE => [formatM (.reg .a) (.reg .e)]
  | .ldAH => [formatM (.reg .a) (.reg .h)]
  | .ldAL => [formatM (.reg .a) (.reg .l)]
  | .ldAA => [formatM (.reg .a) (.reg .a)]
  | .unimpl07 => [0b00000111#8]
  | .unimpl0F => [0b00001111#8]
  | .unimpl10 => [0b00010000#8]
  | .unimpl17 => [0b00010111#8]
  | .unimpl18 => [0b00011000#8]
  | .unimpl1F => [0b00011111#8]
  | .unimpl20 => [0b00100000#8]
  | .unimpl22 => [0b00100010#8]
  | .unimpl27 => [0b00100111#8]
  | .unimpl28 => [0b00101000#8]
  | .unimpl2A => [0b00101010#8]
  | .unimpl2F => [0b00101111#8]
  | .unimpl30 => [0b00110000#8]
  | .unimpl32 => [0b00110010#8]
  | .unimpl37 => [0b00110111#8]
  | .unimpl38 => [0b00111000#8]
  | .unimpl3A => [0b00111010#8]
  | .unimpl3F => [0b00111111#8]
  | .unimpl46 => [0b01000110#8]
  | .unimpl4E => [0b01001110#8]
  | .unimpl56 => [0b01010110#8]
  | .unimpl5E => [0b01011110#8]
  | .unimpl66 => [0b01100110#8]
  | .unimpl6E => [0b01101110#8]
  | .unimpl70 => [0b01110000#8]
  | .unimpl71 => [0b01110001#8]
  | .unimpl72 => [0b01110010#8]
  | .unimpl73 => [0b01110011#8]
  | .unimpl74 => [0b01110100#8]
  | .unimpl75 => [0b01110101#8]
  | .unimpl77 => [0b01110111#8]
  | .unimpl7E => [0b01111110#8]
  | .unimpl80ToFF b => [b]

/-- The opcode byte of an instruction: the first of its bytes. -/
def opcodeByte (i : Instr) : Byte := (encode i).headD 0

/-! ## The decoder by format (30_encoding.md R82, R83, with the exclusions of R89) -/

/-- Formats P, I, S and the two fixed bytes with `opc[7:6] = 00`. -/
def formatForm00 (opc : Byte) : Form :=
  match (opc.extractLsb' 0 3).toNat, (opc.extractLsb' 0 4).toNat with
  | 4, _ => .plain (inc8Of (slotOf (opc.extractLsb' 3 3)))
  | 5, _ => .plain (dec8Of (slotOf (opc.extractLsb' 3 3)))
  | 6, _ => .imm8 (ldImm8Of (slotOf (opc.extractLsb' 3 3)))
  | _, 0x1 => .imm16 (ldPairImmOf (pairOf (opc.extractLsb' 4 2)))
  | _, 0x3 => .plain (incPairOf (pairOf (opc.extractLsb' 4 2)))
  | _, 0x9 => .plain (addHlOf (pairOf (opc.extractLsb' 4 2)))
  | _, 0xB => .plain (decPairOf (pairOf (opc.extractLsb' 4 2)))
  | _, 0x2 => if opc.getLsbD 5 then .plain (unimplOf opc) else .plain (storeAOf (indPairOf (opc.extractLsb' 4 1)))
  | _, 0xA => if opc.getLsbD 5 then .plain (unimplOf opc) else .plain (loadAOf (indPairOf (opc.extractLsb' 4 1)))
  | _, _ =>
    if opc = 0b00000000#8 then .plain .nop else if opc = 0b00001000#8 then .imm16 .ldSpD16Alias else .plain (unimplOf opc)

/-- Format M and HALT, `opc[7:6] = 01`: a move through slot 6 is not wired (R89), and the (6,6) byte is HALT. -/
def formatForm01 (opc : Byte) : Form :=
  match slotOf (opc.extractLsb' 3 3), slotOf (opc.extractLsb' 0 3) with
  | .reg dst, .reg src => .plain (move8Of dst src)
  | .indHl, .indHl => .plain .halt
  | .reg _, .indHl => .plain (unimplOf opc)
  | .indHl, .reg _ => .plain (unimplOf opc)

/-- The opcode map by format and fields; R98 says it agrees with `opcodeForm` on all 256 bytes. -/
def formatForm (opc : Byte) : Form :=
  match (opc.extractLsb' 6 2).toNat with
  | 0 => formatForm00 opc
  | 1 => formatForm01 opc
  | _ => .plain (unimplOf opc)

/-! ## The table's other columns (30_encoding.md R88, 70_reset_and_hazards.md R247) -/

/-- The family of an instruction (30_encoding.md R88, R91). -/
def Instr.family : Instr → Family
  | .nop => .nop
  | .halt => .halt
  | .ldBcD16 _ | .ldDeD16 _ | .ldHlD16 _ | .ldSpD16 _ => .ldPairImm
  | .ldSpD16Alias _ => .ldSpAlias
  | .ldIndBcA | .ldIndDeA => .storeA
  | .ldAIndBc | .ldAIndDe => .loadA
  | .incBc | .incDe | .incHl | .incSp => .incPair
  | .decBc | .decDe | .decHl | .decSp => .decPair
  | .addHlBc | .addHlDe | .addHlHl | .addHlSp => .addHl
  | .incB | .incC | .incD | .incE | .incH | .incL | .incIndHl | .incA => .inc8
  | .decB | .decC | .decD | .decE | .decH | .decL | .decIndHl | .decA => .dec8
  | .ldBD8 _ | .ldCD8 _ | .ldDD8 _ | .ldED8 _ | .ldHD8 _ | .ldLD8 _ | .ldIndHlD8 _ | .ldAD8 _ => .ldImm8
  | .ldBB | .ldBC | .ldBD | .ldBE | .ldBH | .ldBL | .ldBA | .ldCB | .ldCC | .ldCD | .ldCE | .ldCH | .ldCL | .ldCA |
    .ldDB | .ldDC | .ldDD | .ldDE | .ldDH | .ldDL | .ldDA | .ldEB | .ldEC | .ldED | .ldEE | .ldEH | .ldEL | .ldEA |
    .ldHB | .ldHC | .ldHD | .ldHE | .ldHH | .ldHL | .ldHA | .ldLB | .ldLC | .ldLD | .ldLE | .ldLH | .ldLL | .ldLA |
    .ldAB | .ldAC | .ldAD | .ldAE | .ldAH | .ldAL | .ldAA => .move8
  | .unimpl07 | .unimpl0F | .unimpl10 | .unimpl17 | .unimpl18 | .unimpl1F | .unimpl20 | .unimpl22 | .unimpl27 |
    .unimpl28 | .unimpl2A | .unimpl2F | .unimpl30 | .unimpl32 | .unimpl37 | .unimpl38 | .unimpl3A | .unimpl3F |
    .unimpl46 | .unimpl4E | .unimpl56 | .unimpl5E | .unimpl66 | .unimpl6E | .unimpl70 | .unimpl71 | .unimpl72 |
    .unimpl73 | .unimpl74 | .unimpl75 | .unimpl77 | .unimpl7E | .unimpl80ToFF _ => .unimplemented

/-- The declared base cost of a family in ticks (70_reset_and_hazards.md R247); an unimplemented byte has no table cost. -/
def Family.cost : Family → Option Nat
  | .nop | .halt | .inc8 | .dec8 | .move8 => some 1
  | .storeA | .loadA | .incPair | .decPair | .addHl | .ldImm8 => some 2
  | .ldPairImm | .ldSpAlias => some 3
  | .unimplemented => none

/-- The length of a family's instructions in bytes (30_encoding.md R80, R88). -/
def Family.length : Family → Nat
  | .ldPairImm | .ldSpAlias => 3
  | .ldImm8 => 2
  | .nop | .halt | .storeA | .loadA | .incPair | .decPair | .addHl | .inc8 | .dec8 | .move8 | .unimplemented => 1

end Sys2Proof
end

