-- ==== Sys2Proof/Config.lean ====
section
/-! DEFINITION. What the spec leaves as a parameter of the core (00_scope.md R6 to R9) and the values the model names for the
machine right after reset. There is no free value: the spec leaves no result of an instruction undefined. -/

namespace Sys2Proof

/-- INIT, the launch values of the registers, SP and the flags (00_scope.md R7, 10_state.md R44): what construction of a CPU
takes as an argument, since the spec gives no value. -/
structure Init where
  b : Byte
  c : Byte
  d : Byte
  e : Byte
  h : Byte
  l : Byte
  a : Byte
  sp : Word
  fZ : Bool
  fN : Bool
  fH : Bool
  fC : Bool
  deriving DecidableEq, Repr

/-- The INIT of `State.reset`. DESIGN CHOICE (log 3), unsafe: the spec gives no value and warns against assuming zero, so no
statement rests on it; claims range over every state, or over every INIT through `State.construct`. -/
def Config.resetInit : Init :=
  { b := 0, c := 0, d := 0, e := 0, h := 0, l := 0, a := 0, sp := 0, fZ := false, fN := false, fH := false, fC := false }

/-- The upper bound of MEM_SIZE (00_scope.md R6). -/
def Config.memSizeMax : Nat := 65536

/-- The MEM_SIZE of `State.reset`. DESIGN CHOICE (log 2), unsafe: the value the spec's test vectors use when they say nothing
(00_scope.md R6). MEM_SIZE itself is the State field `memSize`, so claims range over every capacity. -/
def Config.resetMemSize : Nat := 65536

/-- Where the first run starts fetching (10_state.md R41, 20_memory.md R58; the spec's decision D7, log 4). -/
def Config.entryPoint : Word := 0x0000

/-- What a byte of memory reads as when nothing has written it (10_state.md R40; log 25). -/
def Config.blankByte : Byte := 0x00

end Sys2Proof
end

