-- ==== Sys2Proof/Machine/State.lean ====
section
/-! DEFINITION. The whole state of the core (10_state.md, the tuple at its head), the reasons a step can stop, and the machine
right after reset. -/

namespace Sys2Proof.Machine

/-- A diagnostic event `Diag(b)` with `b` the unrecognised byte (00_scope.md R8, 46_unimplemented.md R191). -/
structure Diag where
  byte : Byte
  deriving DecidableEq, Repr

/-- The buffer's contents: (address, byte) pairs. Canonical form: addresses strictly rising, and no byte equal to
`Config.blankByte`, which is what an unlisted address reads as (10_state.md R40). -/
abbrev Memory := List Host.Cell

/-- The canonical form of a memory. -/
def Memory.wf : Memory → Bool
  | [] => true
  | c :: rest => c.2 != Config.blankByte && rest.all (fun k => decide (c.1 < k.1)) && Memory.wf rest

/-- Everything the spec gives the machine (10_state.md), as plain data. -/
structure State where
  /-- B, `x[0]` (R20) -/
  b : Byte
  /-- C, `x[1]` (R20) -/
  c : Byte
  /-- D, `x[2]` (R20) -/
  d : Byte
  /-- E, `x[3]` (R20) -/
  e : Byte
  /-- H, `x[4]` (R20) -/
  h : Byte
  /-- L, `x[5]` (R20) -/
  l : Byte
  /-- A, `x[7]`, the accumulator (R20) -/
  a : Byte
  /-- the stack pointer, pair index 3 (R29) -/
  sp : Word
  /-- the program counter (R28) -/
  pc : Word
  /-- Zero (R30) -/
  fZ : Bool
  /-- Subtraction (R30) -/
  fN : Bool
  /-- HalfCarry (R30) -/
  fH : Bool
  /-- Carry (R30) -/
  fC : Bool
  /-- the halted flag (R34) -/
  halted : Bool
  /-- the remaining-cycle counter, `rem` (R35; a natural number by the spec's decision D26, log 26) -/
  rem : Nat
  /-- MEM_SIZE, fixed when the Memory is constructed (00_scope.md R6, 20_memory.md R65; log 2) -/
  memSize : Nat
  /-- the buffer (20_memory.md R50) -/
  mem : Memory
  /-- the diagnostics emitted so far, oldest first (R39, 46_unimplemented.md R194) -/
  log : List Diag
  deriving DecidableEq, Repr

/-- Why a step stops with a fault. -/
inductive Fault where
  /-- An access at an address at or beyond MEM_SIZE (20_memory.md R53, 60_exceptions.md R203): raised by every immediate fetch,
  load and store outside the buffer. Safe: the spec gives no value and no next state there (D10, log 7). -/
  | memOutOfRange (addr : Word)
  deriving DecidableEq, Repr

/-- Why the model gives no meaning. No step ends in one. -/
inductive Refusal where
  /-- An instruction without a meaning yet, rejected by name in `exec`'s arm. Safe. No arm is rejected. -/
  | notModelled (mnemonic : String)
  /-- The host's `load` with a negative offset, outside the contract (20_memory.md R65, D24, log 21): answered by the host
  operation `State.load` only, never by a step. Safe. -/
  | negativeOffset
  deriving DecidableEq, Repr

/-- The machine after construction of a Memory of `n` bytes and a CPU bound to it, with launch values `i`
(70_reset_and_hazards.md R230; 10_state.md R39 to R44), taken at the entry of the first run, where `halted` is false (R43, log 5). -/
def State.construct (n : Nat) (i : Init) : State :=
  { b := i.b, c := i.c, d := i.d, e := i.e, h := i.h, l := i.l, a := i.a
    sp := i.sp, pc := Config.entryPoint
    fZ := i.fZ, fN := i.fN, fH := i.fH, fC := i.fC
    halted := false, rem := 0, memSize := n, mem := [], log := [] }

/-- The machine right after reset: `construct` at the MEM_SIZE and INIT that Config names (log 2, log 3). -/
def State.reset : State := State.construct Config.resetMemSize Config.resetInit

end Sys2Proof.Machine
end

