-- ==== Sys2Proof/Machine/Ops.lean ====
section
/-! DEFINITION. The named operations over memory and state that every meaning is built from: the memory primitives
(00_scope.md R13, 20_memory.md R51 to R53), the field updates, the diagnostic and the end of a handler. The core has no
exception to take and none to return from (60_exceptions.md R200, R207, R208), so no such operation stands here. -/

namespace Sys2Proof.Machine

/-- The byte at an address; an unlisted address reads as the blank byte (10_state.md R40). -/
def Memory.read : Memory → Nat → Byte
  | [], _ => Config.blankByte
  | cell :: rest, addr => if cell.1 = addr then cell.2 else Memory.read rest addr

/-- The memory with nothing listed at an address. -/
def Memory.erase (m : Memory) (addr : Nat) : Memory := m.filter (fun cell => cell.1 != addr)

/-- The memory with one cell put in its place by rising address. -/
def Memory.insert : Memory → Nat → Byte → Memory
  | [], addr, v => [(addr, v)]
  | cell :: rest, addr, v => if addr < cell.1 then (addr, v) :: cell :: rest else cell :: Memory.insert rest addr v

/-- Replacing one byte, in canonical form: writing the blank byte unlists the address. -/
def Memory.write (m : Memory) (addr : Nat) (v : Byte) : Memory :=
  if v = Config.blankByte then m.erase addr else (m.erase addr).insert addr v

/-- `MemRead(addr, 1)` (20_memory.md R51, out of range R53). -/
def State.memRead (s : State) (addr : Word) : Except Fault Byte :=
  if addr.toNat < s.memSize then .ok (s.mem.read addr.toNat) else .error (.memOutOfRange addr)

/-- `MemWrite(addr, 1, v)` (20_memory.md R52, out of range R53). -/
def State.memWrite (s : State) (addr : Word) (v : Byte) : Except Fault State :=
  if addr.toNat < s.memSize then .ok { s with mem := s.mem.write addr.toNat v } else .error (.memOutOfRange addr)

/-- `pc <- target` (00_scope.md R12). -/
def State.setPc (s : State) (target : Word) : State := { s with pc := target }

/-- `sp <- v` (10_state.md R29). -/
def State.setSp (s : State) (v : Word) : State := { s with sp := v }

/-- `rem <- n` (10_state.md R35). -/
def State.setRem (s : State) (n : Nat) : State := { s with rem := n }

/-- `halted <- true` or `false` (10_state.md R34). -/
def State.setHalted (s : State) (v : Bool) : State := { s with halted := v }

/-- The four flags assigned (10_state.md R30); a flag an instruction does not name is passed its old value (R31). -/
def State.setFlags (s : State) (z n hc cy : Bool) : State := { s with fZ := z, fN := n, fH := hc, fC := cy }

/-- `emit Diag(b)`: the event goes to the end of the log (00_scope.md R8, R14; 46_unimplemented.md R191). -/
def State.emit (s : State) (byte : Byte) : State := { s with log := s.log ++ [{ byte := byte }] }

/-- `Fetch8()`: read at PC, then advance PC by one modulo 65536 (00_scope.md R13, 10_state.md R28). -/
def State.fetch8 (s : State) : Except Fault (Byte × State) :=
  match s.memRead s.pc with
  | .ok byte => .ok (byte, s.setPc (s.pc + 1))
  | .error f => .error f

/-- The end of a handler: on a hit the tick sets `rem <- cost - 1` after the effect (70_reset_and_hazards.md R234); a fault
raised by the effect is the outcome and nothing else happens (00_scope.md R14). -/
def finish (cost : Nat) : Except Fault State → Host.Outcome State Fault Refusal
  | .ok s => .next (s.setRem (cost - 1))
  | .error f => .fault f

/-- `load` into the buffer byte by byte from an address, as far as it fits (20_memory.md R65(c)). -/
def State.placeBytes (s : State) : List Byte → Nat → State
  | [], _ => s
  | byte :: rest, addr =>
    if addr < s.memSize then State.placeBytes { s with mem := s.mem.write addr byte } rest (addr + 1) else s

/-- Bytes put where successive fetches read them: from PC on, PC wrapping modulo 65536 (10_state.md R28); an address outside
the buffer holds no byte and is passed over. -/
def State.placeAtFetch (s : State) : List Byte → Word → State
  | [], _ => s
  | byte :: rest, addr =>
    State.placeAtFetch
      (if addr.toNat < s.memSize then { s with mem := s.mem.write addr.toNat byte } else s) rest (addr + 1)

end Sys2Proof.Machine
end

