-- ==== Sys2Proof/Machine/Flags.lean ====
section
/-! DEFINITION. Every flag computation of the spec, and the packed view of the flags. -/

namespace Sys2Proof.Machine

/-- Zero of INC r and DEC r: the 8-bit result is zero (44_incdec8_ldimm8.md R160 to R163; the spec's decision D2, log 9). -/
def zeroOf (result : Byte) : Bool := decide (result = 0)

/-- HalfCarry of INC r: carry out of bit 3, `(v mod 16) = 15` (44_incdec8_ldimm8.md; the spec's decision D23, log 10). -/
def incHalf (v : Byte) : Bool := decide (v.toNat % 16 = 15)

/-- HalfCarry of DEC r: borrow out of the low nibble, `(v mod 16) = 0` (44_incdec8_ldimm8.md; the spec's decision D23, log 10). -/
def decHalf (v : Byte) : Bool := decide (v.toNat % 16 = 0)

/-- The flags after INC of the old value `v`: Carry is kept (44_incdec8_ldimm8.md R160, R161; the spec's decision D12, log 11). -/
def State.incFlags (s : State) (v : Byte) : State := s.setFlags (zeroOf (v + 1)) false (incHalf v) s.fC

/-- The flags after DEC of the old value `v`: Carry is kept (44_incdec8_ldimm8.md R162, R163; the spec's decision D12, log 11). -/
def State.decFlags (s : State) (v : Byte) : State := s.setFlags (zeroOf (v - 1)) true (decHalf v) s.fC

/-- HalfCarry of ADD HL,rr: carry out of bit 11 (43_arith16.md R148 to R151). -/
def addHalf (x y : Word) : Bool := decide (x.toNat % 4096 + y.toNat % 4096 > 4095)

/-- Carry of ADD HL,rr: carry out of bit 15 of the exact sum (43_arith16.md R148 to R151). -/
def addCarry (x y : Word) : Bool := decide (x.toNat + y.toNat > 65535)

/-- The result of ADD HL,rr: the exact sum modulo 65536 (43_arith16.md R148 to R152). -/
def addSum (x y : Word) : Word := BitVec.ofNat 16 (x.toNat + y.toNat)

/-- The flags after ADD HL,rr: assigned, not accumulated (the spec's decision D11, log 11); Zero is kept. -/
def State.addFlags (s : State) (x y : Word) : State := s.setFlags s.fZ false (addHalf x y) (addCarry x y)

/-- `packF()`: the packed view of the flags, bit 0 Zero to bit 3 Carry, bits 7:4 zero (10_state.md R32, R33; log 16). A view
for the host; no instruction uses it. -/
def State.packF (s : State) : Byte :=
  (if s.fZ then 1 else 0) ||| (if s.fN then 2 else 0) ||| (if s.fH then 4 else 0) ||| (if s.fC then 8 else 0)

/-- `unpackF(b)`: bits 7:4 ignored (10_state.md R32; log 16). -/
def State.unpackF (s : State) (byte : Byte) : State :=
  s.setFlags (byte.getLsbD 0) (byte.getLsbD 1) (byte.getLsbD 2) (byte.getLsbD 3)

end Sys2Proof.Machine
end

