-- ==== Sys2Proof/Machine/Operands.lean ====
section
/-! DEFINITION. Every operand form: cells, slots (10_state.md R21, R22), pairs (R24, R25) and the address pairs of the
accumulator loads and stores (42_load_indirect_a.md). -/

namespace Sys2Proof.Machine

/-- Reading a storage cell (10_state.md R20). -/
def State.getReg (s : State) : Reg8 → Byte
  | .b => s.b
  | .c => s.c
  | .d => s.d
  | .e => s.e
  | .h => s.h
  | .l => s.l
  | .a => s.a

/-- Writing a storage cell (10_state.md R20). -/
def State.setReg (s : State) (r : Reg8) (v : Byte) : State :=
  match r with
  | .b => { s with b := v }
  | .c => { s with c := v }
  | .d => { s with d := v }
  | .e => { s with e := v }
  | .h => { s with h := v }
  | .l => { s with l := v }
  | .a => { s with a := v }

/-- `get16(p)` (10_state.md R25); B, D and H are the high halves (R24; the spec's decision D13, log 14). -/
def State.get16 (s : State) : Pair → Word
  | .bc => compose16 s.b s.c
  | .de => compose16 s.d s.e
  | .hl => compose16 s.h s.l
  | .sp => s.sp

/-- `set16(p, v)` (10_state.md R25). -/
def State.set16 (s : State) (p : Pair) (v : Word) : State :=
  match p with
  | .bc => { s with b := hi8 v, c := lo8 v }
  | .de => { s with d := hi8 v, e := lo8 v }
  | .hl => { s with h := hi8 v, l := lo8 v }
  | .sp => s.setSp v

/-- `get8(i)`: slot 6 reads the memory byte at HL (10_state.md R22). -/
def State.get8 (s : State) : Slot → Except Fault Byte
  | .reg r => .ok (s.getReg r)
  | .indHl => s.memRead (s.get16 .hl)

/-- `set8(i, v)`: slot 6 writes the memory byte at HL (10_state.md R22). -/
def State.set8 (s : State) (k : Slot) (v : Byte) : Except Fault State :=
  match k with
  | .reg r => .ok (s.setReg r v)
  | .indHl => s.memWrite (s.get16 .hl) v

/-- The pair an accumulator load or store addresses through (30_encoding.md R82, format I). -/
@[simp] abbrev indPair : IndPair → Pair
  | .bc => .bc
  | .de => .de

end Sys2Proof.Machine
end

