-- ==== Sys2Proof/Machine/Arith16.lean ====
section
/-! DEFINITION. INC rr, DEC rr and ADD HL,rr (43_arith16.md R140 to R152). -/

namespace Sys2Proof.Machine

/-- Add one to a pair modulo 65536, no flag, cost 2 (43_arith16.md R140 to R143). -/
def incPair (p : Pair) (s : State) : Host.Outcome State Fault Refusal :=
  finish 2 (.ok (s.set16 p (s.get16 p + 1)))

/-- Subtract one from a pair modulo 65536, no flag, cost 2 (43_arith16.md R144 to R147). -/
def decPair (p : Pair) (s : State) : Host.Outcome State Fault Refusal :=
  finish 2 (.ok (s.set16 p (s.get16 p - 1)))

/-- Add a pair into HL, both operands read before HL is written, cost 2 (43_arith16.md, the common pseudocode). -/
def addHl (p : Pair) (s : State) : Host.Outcome State Fault Refusal :=
  finish 2 (.ok ((s.addFlags (s.get16 .hl) (s.get16 p)).set16 .hl (addSum (s.get16 .hl) (s.get16 p))))

/-- `INC BC` (R140). -/
def execIncBc (s : State) : Host.Outcome State Fault Refusal := incPair .bc s

/-- `INC DE` (R141). -/
def execIncDe (s : State) : Host.Outcome State Fault Refusal := incPair .de s

/-- `INC HL` (R142). -/
def execIncHl (s : State) : Host.Outcome State Fault Refusal := incPair .hl s

/-- `INC SP` (R143). -/
def execIncSp (s : State) : Host.Outcome State Fault Refusal := incPair .sp s

/-- `DEC BC` (R144). -/
def execDecBc (s : State) : Host.Outcome State Fault Refusal := decPair .bc s

/-- `DEC DE` (R145). -/
def execDecDe (s : State) : Host.Outcome State Fault Refusal := decPair .de s

/-- `DEC HL` (R146). -/
def execDecHl (s : State) : Host.Outcome State Fault Refusal := decPair .hl s

/-- `DEC SP` (R147). -/
def execDecSp (s : State) : Host.Outcome State Fault Refusal := decPair .sp s

/-- `ADD HL,BC` (R148). -/
def execAddHlBc (s : State) : Host.Outcome State Fault Refusal := addHl .bc s

/-- `ADD HL,DE` (R149). -/
def execAddHlDe (s : State) : Host.Outcome State Fault Refusal := addHl .de s

/-- `ADD HL,HL` (R150). -/
def execAddHlHl (s : State) : Host.Outcome State Fault Refusal := addHl .hl s

/-- `ADD HL,SP` (R151). -/
def execAddHlSp (s : State) : Host.Outcome State Fault Refusal := addHl .sp s

end Sys2Proof.Machine
end

