-- ==== Sys2Proof/Machine/Control.lean ====
section
/-! DEFINITION. NOP and HALT (40_nop_halt.md R110 to R112). -/

namespace Sys2Proof.Machine

/-- `NOP`: no operation (R110). -/
def execNop (s : State) : Host.Outcome State Fault Refusal := finish 1 (.ok s)

/-- `HALT`: set the halted flag; the run loop sees it before the next tick (R111). -/
def execHalt (s : State) : Host.Outcome State Fault Refusal := finish 1 (.ok (s.setHalted true))

end Sys2Proof.Machine
end

