-- ==== Sys2Proof/Machine/IncDec8.lean ====
section
/-! DEFINITION. INC r, DEC r and LD r,d8, slot 6 included (44_incdec8_ldimm8.md R160 to R166). The `Fetch8` of LD r,d8 has
been done when its meaning starts (log 23). -/

namespace Sys2Proof.Machine

/-- Add one to a slot modulo 256: read, write, then the flags, cost 1 (44_incdec8_ldimm8.md R160, R161). -/
def incSlot (k : Slot) (s : State) : Host.Outcome State Fault Refusal :=
  finish 1 (do
    let v ← s.get8 k
    let t ← s.set8 k (v + 1)
    return t.incFlags v)

/-- Subtract one from a slot modulo 256: read, write, then the flags, cost 1 (44_incdec8_ldimm8.md R162, R163). -/
def decSlot (k : Slot) (s : State) : Host.Outcome State Fault Refusal :=
  finish 1 (do
    let v ← s.get8 k
    let t ← s.set8 k (v - 1)
    return t.decFlags v)

/-- Put an immediate byte into a slot, no flag, cost 2 (44_incdec8_ldimm8.md R164, R165). -/
def loadSlotImm (k : Slot) (v : Byte) (s : State) : Host.Outcome State Fault Refusal :=
  finish 2 (s.set8 k v)

/-- `INC B` (R160). -/
def execIncB (s : State) : Host.Outcome State Fault Refusal := incSlot (.reg .b) s

/-- `INC C` (R160). -/
def execIncC (s : State) : Host.Outcome State Fault Refusal := incSlot (.reg .c) s

/-- `INC D` (R160). -/
def execIncD (s : State) : Host.Outcome State Fault Refusal := incSlot (.reg .d) s

/-- `INC E` (R160). -/
def execIncE (s : State) : Host.Outcome State Fault Refusal := incSlot (.reg .e) s

/-- `INC H` (R160). -/
def execIncH (s : State) : Host.Outcome State Fault Refusal := incSlot (.reg .h) s

/-- `INC L` (R160). -/
def execIncL (s : State) : Host.Outcome State Fault Refusal := incSlot (.reg .l) s

/-- `INC (HL)` (R161). -/
def execIncIndHl (s : State) : Host.Outcome State Fault Refusal := incSlot .indHl s

/-- `INC A` (R160). -/
def execIncA (s : State) : Host.Outcome State Fault Refusal := incSlot (.reg .a) s

/-- `DEC B` (R162). -/
def execDecB (s : State) : Host.Outcome State Fault Refusal := decSlot (.reg .b) s

/-- `DEC C` (R162). -/
def execDecC (s : State) : Host.Outcome State Fault Refusal := decSlot (.reg .c) s

/-- `DEC D` (R162). -/
def execDecD (s : State) : Host.Outcome State Fault Refusal := decSlot (.reg .d) s

/-- `DEC E` (R162). -/
def execDecE (s : State) : Host.Outcome State Fault Refusal := decSlot (.reg .e) s

/-- `DEC H` (R162). -/
def execDecH (s : State) : Host.Outcome State Fault Refusal := decSlot (.reg .h) s

/-- `DEC L` (R162). -/
def execDecL (s : State) : Host.Outcome State Fault Refusal := decSlot (.reg .l) s

/-- `DEC (HL)` (R163). -/
def execDecIndHl (s : State) : Host.Outcome State Fault Refusal := decSlot .indHl s

/-- `DEC A` (R162). -/
def execDecA (s : State) : Host.Outcome State Fault Refusal := decSlot (.reg .a) s

/-- `LD B,d8` (R164). -/
def execLdBD8 (d8 : Byte) (s : State) : Host.Outcome State Fault Refusal := loadSlotImm (.reg .b) d8 s

/-- `LD C,d8` (R164). -/
def execLdCD8 (d8 : Byte) (s : State) : Host.Outcome State Fault Refusal := loadSlotImm (.reg .c) d8 s

/-- `LD D,d8` (R164). -/
def execLdDD8 (d8 : Byte) (s : State) : Host.Outcome State Fault Refusal := loadSlotImm (.reg .d) d8 s

/-- `LD E,d8` (R164). -/
def execLdED8 (d8 : Byte) (s : State) : Host.Outcome State Fault Refusal := loadSlotImm (.reg .e) d8 s

/-- `LD H,d8` (R164). -/
def execLdHD8 (d8 : Byte) (s : State) : Host.Outcome State Fault Refusal := loadSlotImm (.reg .h) d8 s

/-- `LD L,d8` (R164). -/
def execLdLD8 (d8 : Byte) (s : State) : Host.Outcome State Fault Refusal := loadSlotImm (.reg .l) d8 s

/-- `LD (HL),d8` (R165). -/
def execLdIndHlD8 (d8 : Byte) (s : State) : Host.Outcome State Fault Refusal := loadSlotImm .indHl d8 s

/-- `LD A,d8` (R164). -/
def execLdAD8 (d8 : Byte) (s : State) : Host.Outcome State Fault Refusal := loadSlotImm (.reg .a) d8 s

end Sys2Proof.Machine
end

