-- ==== Sys2Proof/Machine/Load16.lean ====
section
/-! DEFINITION. The 16-bit immediate loads and the alias byte 08 (41_load16.md R120 to R124). The two `Fetch8` of the
rules have been done when a meaning starts (log 23). -/

namespace Sys2Proof.Machine

/-- The load-pair-immediate handler, cost 3 (41_load16.md, common to the family). -/
def loadPairImm (p : Pair) (v : Word) (s : State) : Host.Outcome State Fault Refusal :=
  finish 3 (.ok (s.set16 p v))

/-- `LD BC,d16` (R120). -/
def execLdBcD16 (d16 : Word) (s : State) : Host.Outcome State Fault Refusal := loadPairImm .bc d16 s

/-- `LD DE,d16` (R121). -/
def execLdDeD16 (d16 : Word) (s : State) : Host.Outcome State Fault Refusal := loadPairImm .de d16 s

/-- `LD HL,d16` (R122). -/
def execLdHlD16 (d16 : Word) (s : State) : Host.Outcome State Fault Refusal := loadPairImm .hl d16 s

/-- `LD SP,d16` (R123). -/
def execLdSpD16 (d16 : Word) (s : State) : Host.Outcome State Fault Refusal := loadPairImm .sp d16 s

/-- `LD SP,d16 (alias byte 08)`: wired to load semantics, so SP is loaded and nothing is stored (R124; the spec's decision D4, log 12). -/
def execLdSpD16Alias (d16 : Word) (s : State) : Host.Outcome State Fault Refusal := loadPairImm .sp d16 s

end Sys2Proof.Machine
end

