-- ==== Sys2Proof/Machine/LoadIndirectA.lean ====
section
/-! DEFINITION. The accumulator stores and loads through BC and DE (42_load_indirect_a.md R130 to R134). -/

namespace Sys2Proof.Machine

/-- Store the accumulator at the address in a pair, cost 2 (42_load_indirect_a.md R130, R131). -/
def storeAThrough (p : IndPair) (s : State) : Host.Outcome State Fault Refusal :=
  finish 2 (s.memWrite (s.get16 (indPair p)) s.a)

/-- Load the accumulator from the address in a pair, cost 2 (42_load_indirect_a.md R132, R133). -/
def loadAThrough (p : IndPair) (s : State) : Host.Outcome State Fault Refusal :=
  finish 2 ((s.memRead (s.get16 (indPair p))).map (fun v => s.setReg .a v))

/-- `LD (BC),A` (R130). -/
def execLdIndBcA (s : State) : Host.Outcome State Fault Refusal := storeAThrough .bc s

/-- `LD (DE),A` (R131). -/
def execLdIndDeA (s : State) : Host.Outcome State Fault Refusal := storeAThrough .de s

/-- `LD A,(BC)` (R132). -/
def execLdAIndBc (s : State) : Host.Outcome State Fault Refusal := loadAThrough .bc s

/-- `LD A,(DE)` (R133). -/
def execLdAIndDe (s : State) : Host.Outcome State Fault Refusal := loadAThrough .de s

end Sys2Proof.Machine
end

