-- ==== Sys2Proof/Machine/Move8.lean ====
section
/-! DEFINITION. The 49 register-to-register moves (45_move8.md R180). -/

namespace Sys2Proof.Machine

/-- `x[ddd] <- x[sss]`, no flag, cost 1 (45_move8.md R180). -/
def moveReg (dst src : Reg8) (s : State) : Host.Outcome State Fault Refusal :=
  finish 1 (.ok (s.setReg dst (s.getReg src)))

/-- `LD B,B` (R180). -/
def execLdBB (s : State) : Host.Outcome State Fault Refusal := moveReg .b .b s

/-- `LD B,C` (R180). -/
def execLdBC (s : State) : Host.Outcome State Fault Refusal := moveReg .b .c s

/-- `LD B,D` (R180). -/
def execLdBD (s : State) : Host.Outcome State Fault Refusal := moveReg .b .d s

/-- `LD B,E` (R180). -/
def execLdBE (s : State) : Host.Outcome State Fault Refusal := moveReg .b .e s

/-- `LD B,H` (R180). -/
def execLdBH (s : State) : Host.Outcome State Fault Refusal := moveReg .b .h s

/-- `LD B,L` (R180). -/
def execLdBL (s : State) : Host.Outcome State Fault Refusal := moveReg .b .l s

/-- `LD B,A` (R180). -/
def execLdBA (s : State) : Host.Outcome State Fault Refusal := moveReg .b .a s

/-- `LD C,B` (R180). -/
def execLdCB (s : State) : Host.Outcome State Fault Refusal := moveReg .c .b s

/-- `LD C,C` (R180). -/
def execLdCC (s : State) : Host.Outcome State Fault Refusal := moveReg .c .c s

/-- `LD C,D` (R180). -/
def execLdCD (s : State) : Host.Outcome State Fault Refusal := moveReg .c .d s

/-- `LD C,E` (R180). -/
def execLdCE (s : State) : Host.Outcome State Fault Refusal := moveReg .c .e s

/-- `LD C,H` (R180). -/
def execLdCH (s : State) : Host.Outcome State Fault Refusal := moveReg .c .h s

/-- `LD C,L` (R180). -/
def execLdCL (s : State) : Host.Outcome State Fault Refusal := moveReg .c .l s

/-- `LD C,A` (R180). -/
def execLdCA (s : State) : Host.Outcome State Fault Refusal := moveReg .c .a s

/-- `LD D,B` (R180). -/
def execLdDB (s : State) : Host.Outcome State Fault Refusal := moveReg .d .b s

/-- `LD D,C` (R180). -/
def execLdDC (s : State) : Host.Outcome State Fault Refusal := moveReg .d .c s

/-- `LD D,D` (R180). -/
def execLdDD (s : State) : Host.Outcome State Fault Refusal := moveReg .d .d s

/-- `LD D,E` (R180). -/
def execLdDE (s : State) : Host.Outcome State Fault Refusal := moveReg .d .e s

/-- `LD D,H` (R180). -/
def execLdDH (s : State) : Host.Outcome State Fault Refusal := moveReg .d .h s

/-- `LD D,L` (R180). -/
def execLdDL (s : State) : Host.Outcome State Fault Refusal := moveReg .d .l s

/-- `LD D,A` (R180). -/
def execLdDA (s : State) : Host.Outcome State Fault Refusal := moveReg .d .a s

/-- `LD E,B` (R180). -/
def execLdEB (s : State) : Host.Outcome State Fault Refusal := moveReg .e .b s

/-- `LD E,C` (R180). -/
def execLdEC (s : State) : Host.Outcome State Fault Refusal := moveReg .e .c s

/-- `LD E,D` (R180). -/
def execLdED (s : State) : Host.Outcome State Fault Refusal := moveReg .e .d s

/-- `LD E,E` (R180). -/
def execLdEE (s : State) : Host.Outcome State Fault Refusal := moveReg .e .e s

/-- `LD E,H` (R180). -/
def execLdEH (s : State) : Host.Outcome State Fault Refusal := moveReg .e .h s

/-- `LD E,L` (R180). -/
def execLdEL (s : State) : Host.Outcome State Fault Refusal := moveReg .e .l s

/-- `LD E,A` (R180). -/
def execLdEA (s : State) : Host.Outcome State Fault Refusal := moveReg .e .a s

/-- `LD H,B` (R180). -/
def execLdHB (s : State) : Host.Outcome State Fault Refusal := moveReg .h .b s

/-- `LD H,C` (R180). -/
def execLdHC (s : State) : Host.Outcome State Fault Refusal := moveReg .h .c s

/-- `LD H,D` (R180). -/
def execLdHD (s : State) : Host.Outcome State Fault Refusal := moveReg .h .d s

/-- `LD H,E` (R180). -/
def execLdHE (s : State) : Host.Outcome State Fault Refusal := moveReg .h .e s

/-- `LD H,H` (R180). -/
def execLdHH (s : State) : Host.Outcome State Fault Refusal := moveReg .h .h s

/-- `LD H,L` (R180). -/
def execLdHL (s : State) : Host.Outcome State Fault Refusal := moveReg .h .l s

/-- `LD H,A` (R180). -/
def execLdHA (s : State) : Host.Outcome State Fault Refusal := moveReg .h .a s

/-- `LD L,B` (R180). -/
def execLdLB (s : State) : Host.Outcome State Fault Refusal := moveReg .l .b s

/-- `LD L,C` (R180). -/
def execLdLC (s : State) : Host.Outcome State Fault Refusal := moveReg .l .c s

/-- `LD L,D` (R180). -/
def execLdLD (s : State) : Host.Outcome State Fault Refusal := moveReg .l .d s

/-- `LD L,E` (R180). -/
def execLdLE (s : State) : Host.Outcome State Fault Refusal := moveReg .l .e s

/-- `LD L,H` (R180). -/
def execLdLH (s : State) : Host.Outcome State Fault Refusal := moveReg .l .h s

/-- `LD L,L` (R180). -/
def execLdLL (s : State) : Host.Outcome State Fault Refusal := moveReg .l .l s

/-- `LD L,A` (R180). -/
def execLdLA (s : State) : Host.Outcome State Fault Refusal := moveReg .l .a s

/-- `LD A,B` (R180). -/
def execLdAB (s : State) : Host.Outcome State Fault Refusal := moveReg .a .b s

/-- `LD A,C` (R180). -/
def execLdAC (s : State) : Host.Outcome State Fault Refusal := moveReg .a .c s

/-- `LD A,D` (R180). -/
def execLdAD (s : State) : Host.Outcome State Fault Refusal := moveReg .a .d s

/-- `LD A,E` (R180). -/
def execLdAE (s : State) : Host.Outcome State Fault Refusal := moveReg .a .e s

/-- `LD A,H` (R180). -/
def execLdAH (s : State) : Host.Outcome State Fault Refusal := moveReg .a .h s

/-- `LD A,L` (R180). -/
def execLdAL (s : State) : Host.Outcome State Fault Refusal := moveReg .a .l s

/-- `LD A,A` (R180). -/
def execLdAA (s : State) : Host.Outcome State Fault Refusal := moveReg .a .a s

end Sys2Proof.Machine
end

