-- ==== Sys2Proof/Machine/Unimplemented.lean ====
section
/-! DEFINITION. The bytes with no row in the Opcode Table (46_unimplemented.md R190, R191). -/

namespace Sys2Proof.Machine

/-- `emit Diag(b)` and nothing else; `rem` keeps its value (46_unimplemented.md R190). -/
def unimplemented (opc : Byte) (s : State) : Host.Outcome State Fault Refusal :=
  .next (s.emit opc)

/-- byte 07 (R190). -/
def execUnimpl07 (s : State) : Host.Outcome State Fault Refusal := unimplemented 0x07 s

/-- byte 0F (R190). -/
def execUnimpl0F (s : State) : Host.Outcome State Fault Refusal := unimplemented 0x0F s

/-- byte 10 (R190). -/
def execUnimpl10 (s : State) : Host.Outcome State Fault Refusal := unimplemented 0x10 s

/-- byte 17 (R190). -/
def execUnimpl17 (s : State) : Host.Outcome State Fault Refusal := unimplemented 0x17 s

/-- byte 18 (R190). -/
def execUnimpl18 (s : State) : Host.Outcome State Fault Refusal := unimplemented 0x18 s

/-- byte 1F (R190). -/
def execUnimpl1F (s : State) : Host.Outcome State Fault Refusal := unimplemented 0x1F s

/-- byte 20 (R190). -/
def execUnimpl20 (s : State) : Host.Outcome State Fault Refusal := unimplemented 0x20 s

/-- byte 22 (R190). -/
def execUnimpl22 (s : State) : Host.Outcome State Fault Refusal := unimplemented 0x22 s

/-- byte 27 (R190). -/
def execUnimpl27 (s : State) : Host.Outcome State Fault Refusal := unimplemented 0x27 s

/-- byte 28 (R190). -/
def execUnimpl28 (s : State) : Host.Outcome State Fault Refusal := unimplemented 0x28 s

/-- byte 2A (R190). -/
def execUnimpl2A (s : State) : Host.Outcome State Fault Refusal := unimplemented 0x2A s

/-- byte 2F (R190). -/
def execUnimpl2F (s : State) : Host.Outcome State Fault Refusal := unimplemented 0x2F s

/-- byte 30 (R190). -/
def execUnimpl30 (s : State) : Host.Outcome State Fault Refusal := unimplemented 0x30 s

/-- byte 32 (R190). -/
def execUnimpl32 (s : State) : Host.Outcome State Fault Refusal := unimplemented 0x32 s

/-- byte 37 (R190). -/
def execUnimpl37 (s : State) : Host.Outcome State Fault Refusal := unimplemented 0x37 s

/-- byte 38 (R190). -/
def execUnimpl38 (s : State) : Host.Outcome State Fault Refusal := unimplemented 0x38 s

/-- byte 3A (R190). -/
def execUnimpl3A (s : State) : Host.Outcome State Fault Refusal := unimplemented 0x3A s

/-- byte 3F (R190). -/
def execUnimpl3F (s : State) : Host.Outcome State Fault Refusal := unimplemented 0x3F s

/-- byte 46 (R190). -/
def execUnimpl46 (s : State) : Host.Outcome State Fault Refusal := unimplemented 0x46 s

/-- byte 4E (R190). -/
def execUnimpl4E (s : State) : Host.Outcome State Fault Refusal := unimplemented 0x4E s

/-- byte 56 (R190). -/
def execUnimpl56 (s : State) : Host.Outcome State Fault Refusal := unimplemented 0x56 s

/-- byte 5E (R190). -/
def execUnimpl5E (s : State) : Host.Outcome State Fault Refusal := unimplemented 0x5E s

/-- byte 66 (R190). -/
def execUnimpl66 (s : State) : Host.Outcome State Fault Refusal := unimplemented 0x66 s

/-- byte 6E (R190). -/
def execUnimpl6E (s : State) : Host.Outcome State Fault Refusal := unimplemented 0x6E s

/-- byte 70 (R190). -/
def execUnimpl70 (s : State) : Host.Outcome State Fault Refusal := unimplemented 0x70 s

/-- byte 71 (R190). -/
def execUnimpl71 (s : State) : Host.Outcome State Fault Refusal := unimplemented 0x71 s

/-- byte 72 (R190). -/
def execUnimpl72 (s : State) : Host.Outcome State Fault Refusal := unimplemented 0x72 s

/-- byte 73 (R190). -/
def execUnimpl73 (s : State) : Host.Outcome State Fault Refusal := unimplemented 0x73 s

/-- byte 74 (R190). -/
def execUnimpl74 (s : State) : Host.Outcome State Fault Refusal := unimplemented 0x74 s

/-- byte 75 (R190). -/
def execUnimpl75 (s : State) : Host.Outcome State Fault Refusal := unimplemented 0x75 s

/-- byte 77 (R190). -/
def execUnimpl77 (s : State) : Host.Outcome State Fault Refusal := unimplemented 0x77 s

/-- byte 7E (R190). -/
def execUnimpl7E (s : State) : Host.Outcome State Fault Refusal := unimplemented 0x7E s

/-- byte 80 to FF (R190). -/
def execUnimpl80ToFF (b : Byte) (s : State) : Host.Outcome State Fault Refusal := unimplemented b s

end Sys2Proof.Machine
end

