-- ==== Sys2Proof/Machine/Dispatch.lean ====
section
/-! DEFINITION. `Exec(opc)` (70_reset_and_hazards.md R235) with the tick's `rem <- cost - 1`: one arm per constructor of Instr. -/

namespace Sys2Proof.Machine

def exec (i : Instr) (s : State) : Host.Outcome State Fault Refusal :=
  match i with
  | .nop => Sys2Proof.Machine.execNop s
  | .ldBcD16 d16 => Sys2Proof.Machine.execLdBcD16 d16 s
  | .ldIndBcA => Sys2Proof.Machine.execLdIndBcA s
  | .incBc => Sys2Proof.Machine.execIncBc s
  | .incB => Sys2Proof.Machine.execIncB s
  | .decB => Sys2Proof.Machine.execDecB s
  | .ldBD8 d8 => Sys2Proof.Machine.execLdBD8 d8 s
  | .unimpl07 => Sys2Proof.Machine.execUnimpl07 s
  | .ldSpD16Alias d16 => Sys2Proof.Machine.execLdSpD16Alias d16 s
  | .addHlBc => Sys2Proof.Machine.execAddHlBc s
  | .ldAIndBc => Sys2Proof.Machine.execLdAIndBc s
  | .decBc => Sys2Proof.Machine.execDecBc s
  | .incC => Sys2Proof.Machine.execIncC s
  | .decC => Sys2Proof.Machine.execDecC s
  | .ldCD8 d8 => Sys2Proof.Machine.execLdCD8 d8 s
  | .unimpl0F => Sys2Proof.Machine.execUnimpl0F s
  | .unimpl10 => Sys2Proof.Machine.execUnimpl10 s
  | .ldDeD16 d16 => Sys2Proof.Machine.execLdDeD16 d16 s
  | .ldIndDeA => Sys2Proof.Machine.execLdIndDeA s
  | .incDe => Sys2Proof.Machine.execIncDe s
  | .incD => Sys2Proof.Machine.execIncD s
  | .decD => Sys2Proof.Machine.execDecD s
  | .ldDD8 d8 => Sys2Proof.Machine.execLdDD8 d8 s
  | .unimpl17 => Sys2Proof.Machine.execUnimpl17 s
  | .unimpl18 => Sys2Proof.Machine.execUnimpl18 s
  | .addHlDe => Sys2Proof.Machine.execAddHlDe s
  | .ldAIndDe => Sys2Proof.Machine.execLdAIndDe s
  | .decDe => Sys2Proof.Machine.execDecDe s
  | .incE => Sys2Proof.Machine.execIncE s
  | .decE => Sys2Proof.Machine.execDecE s
  | .ldED8 d8 => Sys2Proof.Machine.execLdED8 d8 s
  | .unimpl1F => Sys2Proof.Machine.execUnimpl1F s
  | .unimpl20 => Sys2Proof.Machine.execUnimpl20 s
  | .ldHlD16 d16 => Sys2Proof.Machine.execLdHlD16 d16 s
  | .unimpl22 => Sys2Proof.Machine.execUnimpl22 s
  | .incHl => Sys2Proof.Machine.execIncHl s
  | .incH => Sys2Proof.Machine.execIncH s
  | .decH => Sys2Proof.Machine.execDecH s
  | .ldHD8 d8 => Sys2Proof.Machine.execLdHD8 d8 s
  | .unimpl27 => Sys2Proof.Machine.execUnimpl27 s
  | .unimpl28 => Sys2Proof.Machine.execUnimpl28 s
  | .addHlHl => Sys2Proof.Machine.execAddHlHl s
  | .unimpl2A => Sys2Proof.Machine.execUnimpl2A s
  | .decHl => Sys2Proof.Machine.execDecHl s
  | .incL => Sys2Proof.Machine.execIncL s
  | .decL => Sys2Proof.Machine.execDecL s
  | .ldLD8 d8 => Sys2Proof.Machine.execLdLD8 d8 s
  | .unimpl2F => Sys2Proof.Machine.execUnimpl2F s
  | .unimpl30 => Sys2Proof.Machine.execUnimpl30 s
  | .ldSpD16 d16 => Sys2Proof.Machine.execLdSpD16 d16 s
  | .unimpl32 => Sys2Proof.Machine.execUnimpl32 s
  | .incSp => Sys2Proof.Machine.execIncSp s
  | .incIndHl => Sys2Proof.Machine.execIncIndHl s
  | .decIndHl => Sys2Proof.Machine.execDecIndHl s
  | .ldIndHlD8 d8 => Sys2Proof.Machine.execLdIndHlD8 d8 s
  | .unimpl37 => Sys2Proof.Machine.execUnimpl37 s
  | .unimpl38 => Sys2Proof.Machine.execUnimpl38 s
  | .addHlSp => Sys2Proof.Machine.execAddHlSp s
  | .unimpl3A => Sys2Proof.Machine.execUnimpl3A s
  | .decSp => Sys2Proof.Machine.execDecSp s
  | .incA => Sys2Proof.Machine.execIncA s
  | .decA => Sys2Proof.Machine.execDecA s
  | .ldAD8 d8 => Sys2Proof.Machine.execLdAD8 d8 s
  | .unimpl3F => Sys2Proof.Machine.execUnimpl3F s
  | .ldBB => Sys2Proof.Machine.execLdBB s
  | .ldBC => Sys2Proof.Machine.execLdBC s
  | .ldBD => Sys2Proof.Machine.execLdBD s
  | .ldBE => Sys2Proof.Machine.execLdBE s
  | .ldBH => Sys2Proof.Machine.execLdBH s
  | .ldBL => Sys2Proof.Machine.execLdBL s
  | .unimpl46 => Sys2Proof.Machine.execUnimpl46 s
  | .ldBA => Sys2Proof.Machine.execLdBA s
  | .ldCB => Sys2Proof.Machine.execLdCB s
  | .ldCC => Sys2Proof.Machine.execLdCC s
  | .ldCD => Sys2Proof.Machine.execLdCD s
  | .ldCE => Sys2Proof.Machine.execLdCE s
  | .ldCH => Sys2Proof.Machine.execLdCH s
  | .ldCL => Sys2Proof.Machine.execLdCL s
  | .unimpl4E => Sys2Proof.Machine.execUnimpl4E s
  | .ldCA => Sys2Proof.Machine.execLdCA s
  | .ldDB => Sys2Proof.Machine.execLdDB s
  | .ldDC => Sys2Proof.Machine.execLdDC s
  | .ldDD => Sys2Proof.Machine.execLdDD s
  | .ldDE => Sys2Proof.Machine.execLdDE s
  | .ldDH => Sys2Proof.Machine.execLdDH s
  | .ldDL => Sys2Proof.Machine.execLdDL s
  | .unimpl56 => Sys2Proof.Machine.execUnimpl56 s
  | .ldDA => Sys2Proof.Machine.execLdDA s
  | .ldEB => Sys2Proof.Machine.execLdEB s
  | .ldEC => Sys2Proof.Machine.execLdEC s
  | .ldED => Sys2Proof.Machine.execLdED s
  | .ldEE => Sys2Proof.Machine.execLdEE s
  | .ldEH => Sys2Proof.Machine.execLdEH s
  | .ldEL => Sys2Proof.Machine.execLdEL s
  | .unimpl5E => Sys2Proof.Machine.execUnimpl5E s
  | .ldEA => Sys2Proof.Machine.execLdEA s
  | .ldHB => Sys2Proof.Machine.execLdHB s
  | .ldHC => Sys2Proof.Machine.execLdHC s
  | .ldHD => Sys2Proof.Machine.execLdHD s
  | .ldHE => Sys2Proof.Machine.execLdHE s
  | .ldHH => Sys2Proof.Machine.execLdHH s
  | .ldHL => Sys2Proof.Machine.execLdHL s
  | .unimpl66 => Sys2Proof.Machine.execUnimpl66 s
  | .ldHA => Sys2Proof.Machine.execLdHA s
  | .ldLB => Sys2Proof.Machine.execLdLB s
  | .ldLC => Sys2Proof.Machine.execLdLC s
  | .ldLD => Sys2Proof.Machine.execLdLD s
  | .ldLE => Sys2Proof.Machine.execLdLE s
  | .ldLH => Sys2Proof.Machine.execLdLH s
  | .ldLL => Sys2Proof.Machine.execLdLL s
  | .unimpl6E => Sys2Proof.Machine.execUnimpl6E s
  | .ldLA => Sys2Proof.Machine.execLdLA s
  | .unimpl70 => Sys2Proof.Machine.execUnimpl70 s
  | .unimpl71 => Sys2Proof.Machine.execUnimpl71 s
  | .unimpl72 => Sys2Proof.Machine.execUnimpl72 s
  | .unimpl73 => Sys2Proof.Machine.execUnimpl73 s
  | .unimpl74 => Sys2Proof.Machine.execUnimpl74 s
  | .unimpl75 => Sys2Proof.Machine.execUnimpl75 s
  | .halt => Sys2Proof.Machine.execHalt s
  | .unimpl77 => Sys2Proof.Machine.execUnimpl77 s
  | .ldAB => Sys2Proof.Machine.execLdAB s
  | .ldAC => Sys2Proof.Machine.execLdAC s
  | .ldAD => Sys2Proof.Machine.execLdAD s
  | .ldAE => Sys2Proof.Machine.execLdAE s
  | .ldAH => Sys2Proof.Machine.execLdAH s
  | .ldAL => Sys2Proof.Machine.execLdAL s
  | .unimpl7E => Sys2Proof.Machine.execUnimpl7E s
  | .ldAA => Sys2Proof.Machine.execLdAA s
  | .unimpl80ToFF b => Sys2Proof.Machine.execUnimpl80ToFF b s

end Sys2Proof.Machine
end

