-- ==== Sys2Proof/Machine/Tick.lean ====
section
/-! DEFINITION. Fetching an instruction's bytes, the tick, and the run loop's exit test (70_reset_and_hazards.md R233 to R237). -/

namespace Sys2Proof.Machine

/-- The opcode byte and every immediate byte it takes, each by a `Fetch8` (70_reset_and_hazards.md R234, 30_encoding.md R85,
R86; log 23): the instruction, and the state with PC past its bytes. -/
def State.fetchInstr (s : State) : Except Fault (Instr × State) := do
  let (opc, s1) ← s.fetch8
  match opcodeForm opc with
  | .plain i => return (i, s1)
  | .imm8 k => do
    let (v, s2) ← s1.fetch8
    return (k v, s2)
  | .imm16 k => do
    let (lo, s2) ← s1.fetch8
    let (hi, s3) ← s2.fetch8
    return (k (compose16 hi lo), s3)

/-- `Tick()` (70_reset_and_hazards.md R234): burn one unit of latency, or fetch one instruction and execute it whole. -/
def tick (s : State) : Host.Outcome State Fault Refusal :=
  if 0 < s.rem then .next (s.setRem (s.rem - 1))
  else
    match s.fetchInstr with
    | .ok (i, t) => exec i t
    | .error f => .fault f

/-- The run loop's exit test: halted, or PC at or past the end of the buffer (70_reset_and_hazards.md R233, R236). -/
def State.ended (s : State) : Bool := s.halted || decide (s.memSize ≤ s.pc.toNat)

/-- One turn of the run loop: the exit test, before every tick (R233; the spec's decision D19, log 19), then a tick. A run that has
ended is at rest: it ended cleanly (R236), so the step answers the same state, no fault (log 6). -/
def runLoopStep (s : State) : Host.Outcome State Fault Refusal :=
  if s.ended then .next s else tick s

/-- The bytes at PC that a fetch could read, at most `n` of them: they stop at the first address outside the buffer. -/
def State.bytesFrom (s : State) : Nat → Word → List Byte
  | 0, _ => []
  | n + 1, addr =>
    if addr.toNat < s.memSize then s.mem.read addr.toNat :: State.bytesFrom s n (addr + 1) else []

end Sys2Proof.Machine
end

