-- ==== Sys2Proof/Machine/Step.lean ====
section
/-! DEFINITION. The machine's step, and how the host places an instruction for it. -/

namespace Sys2Proof.Machine

/-- One step of the core: one turn of the run loop (70_reset_and_hazards.md R233, R234). -/
def step : State → Host.Outcome State Fault Refusal := runLoopStep

/-- `s` with an instruction stored where the next step fetches it: its bytes at PC, PC + 1 and PC + 2, in a run that has not
halted and with no latency left to burn, since the step fetches only then (log 24). -/
def State.withFetchWord (s : State) (nbits w : Nat) : State :=
  ((s.setHalted false).setRem 0).placeAtFetch (tableBytes nbits w) s.pc

end Sys2Proof.Machine
end

