-- ==== Sys2Proof/Machine/HostPort.lean ====
section
/-! DEFINITION. What the host does outside a run: the Memory operations (20_memory.md R65), construction of a CPU over a Memory
that is already there (R65(d), 70_reset_and_hazards.md R231, R245), `run()` and the bounded run (R233, R236, R238), the accessors
(10_state.md R46), and the instruction-level view (R237). Construction of a Memory with a CPU bound to it is `State.construct` in
State.lean; `rawBuffer()` is the field `mem` itself, since the CPU captures the live buffer (R65(d)). -/

namespace Sys2Proof.Machine

/-- `clear()`: every byte is zero again (20_memory.md R65(b), 10_state.md R40). -/
def State.clear (s : State) : State := { s with mem := [] }

/-- `load(bytes, offset)`: as many bytes as fit; a negative offset is refused (20_memory.md R65(c); the spec's decision D24, log 21). -/
def State.load (s : State) (bytes : List Byte) (offset : Int := 0) : Except Refusal State :=
  if offset < 0 then .error .negativeOffset else .ok (s.placeBytes bytes offset.toNat)

/-- A new CPU with launch values `i`, bound to the Memory of `s`: the capacity and every byte of the live buffer stay, and all
that the CPU owns is as at construction (20_memory.md R65(d), 70_reset_and_hazards.md R230, R231, R245; 10_state.md R39 to R44).
The CPU that `s` had is given up. -/
def State.newCpu (s : State) (i : Init) : State := { State.construct s.memSize i with mem := s.mem }

/-- What the call of `run()` does before its loop: it clears `halted` and nothing else (10_state.md R43, R45). -/
def State.enterRun (s : State) : State := s.setHalted false

/-- `n` turns of the run loop, stopping at a fault; a run that has ended rests (70_reset_and_hazards.md R233). -/
def steps : Nat → State → Host.Outcome State Fault Refusal
  | 0, s => .next s
  | n + 1, s =>
    match step s with
    | .next t => steps n t
    | .fault f => .fault f
    | .refused r => .refused r

/-- `runN(n)`: the bounded run, a count of ticks (70_reset_and_hazards.md R238; the spec's decision D20, log 20). -/
def runN (n : Nat) (s : State) : Host.Outcome State Fault Refusal := steps n s.enterRun

/-- `run()` called in `s` returns in `t`: some number of ticks ends the run there (70_reset_and_hazards.md R233, R236). A run
that faults or goes on for ever returns nowhere (R236, R241). -/
def RunReturns (s t : State) : Prop := ∃ n, runN n s = .next t ∧ t.ended = true

/-- The instruction-level step of R237: a fetching tick, then all the latency ticks it schedules; a run that has ended rests. -/
def instrStep (s : State) : Host.Outcome State Fault Refusal :=
  if s.ended then .next s
  else
    match tick (s.setRem 0) with
    | .next t => .next (t.setRem 0)
    | .fault f => .fault f
    | .refused r => .refused r

/-- `n` instruction-level steps, stopping at a fault. -/
def instrSteps : Nat → State → Host.Outcome State Fault Refusal
  | 0, s => .next s
  | n + 1, s =>
    match instrStep s with
    | .next t => instrSteps n t
    | .fault f => .fault f
    | .refused r => .refused r

/-- What the host's read-only accessors answer: the seven cells, the three derived pairs and the four flags (10_state.md R46). -/
structure Accessors where
  cell : List Byte
  bc : Word
  de : Word
  hl : Word
  fZ : Bool
  fN : Bool
  fH : Bool
  fC : Bool
  deriving DecidableEq, Repr

/-- The accessors of a state (10_state.md R46). -/
def State.accessors (s : State) : Accessors :=
  { cell := [s.b, s.c, s.d, s.e, s.h, s.l, s.a], bc := s.get16 .bc, de := s.get16 .de, hl := s.get16 .hl
    fZ := s.fZ, fN := s.fN, fH := s.fH, fC := s.fC }

end Sys2Proof.Machine
end

