-- ==== Sys2Proof/Safety.lean ====
section
/-! DEFINITION. What claims are stated in: which states are sound, which address an instruction accesses, what it may change,
and when a run is safe. -/

namespace Sys2Proof.Machine

/-- Every listed address is inside the buffer (20_memory.md R50). -/
def Memory.inside (m : Memory) (n : Nat) : Bool := m.all (fun cell => decide (cell.1 < n))

/-- The invariant of the core: MEM_SIZE is legal (00_scope.md R6), the memory is canonical and inside the buffer, `rem` is 0, 1
or 2 (10_state.md R35), a halted core has no latency left (70_reset_and_hazards.md R236), and PC has not gone past the end of
the buffer (R241). -/
abbrev State.Inv (s : State) : Prop :=
  (1 ≤ s.memSize ∧ s.memSize ≤ Config.memSizeMax) ∧ s.mem.wf = true ∧ s.mem.inside s.memSize = true ∧
    s.rem ≤ 2 ∧ (s.halted = true → s.rem = 0) ∧ s.pc.toNat ≤ s.memSize

/-- An outcome with its next state changed by `f`; a fault and a refusal stay. -/
def onNext (f : State → State) : Host.Outcome State Fault Refusal → Host.Outcome State Fault Refusal
  | .next s => .next (f s)
  | .fault r => .fault r
  | .refused r => .refused r

/-- The pair through which an instruction accesses data memory, if it does (20_memory.md R56, 42_load_indirect_a.md R134). -/
def addressPair : Instr → Option Pair
  | .ldIndBcA | .ldAIndBc => some .bc
  | .ldIndDeA | .ldAIndDe => some .de
  | .incIndHl | .decIndHl | .ldIndHlD8 _ => some .hl
  | .nop | .ldBcD16 _ | .incBc | .incB | .decB | .ldBD8 _ | .unimpl07 | .ldSpD16Alias _ | .addHlBc | .decBc | .incC |
    .decC | .ldCD8 _ | .unimpl0F | .unimpl10 | .ldDeD16 _ | .incDe | .incD | .decD | .ldDD8 _ | .unimpl17 |
    .unimpl18 | .addHlDe | .decDe | .incE | .decE | .ldED8 _ | .unimpl1F | .unimpl20 | .ldHlD16 _ | .unimpl22 |
    .incHl | .incH | .decH | .ldHD8 _ | .unimpl27 | .unimpl28 | .addHlHl | .unimpl2A | .decHl | .incL | .decL |
    .ldLD8 _ | .unimpl2F | .unimpl30 | .ldSpD16 _ | .unimpl32 | .incSp | .unimpl37 | .unimpl38 | .addHlSp |
    .unimpl3A | .decSp | .incA | .decA | .ldAD8 _ | .unimpl3F | .ldBB | .ldBC | .ldBD | .ldBE | .ldBH | .ldBL |
    .unimpl46 | .ldBA | .ldCB | .ldCC | .ldCD | .ldCE | .ldCH | .ldCL | .unimpl4E | .ldCA | .ldDB | .ldDC | .ldDD |
    .ldDE | .ldDH | .ldDL | .unimpl56 | .ldDA | .ldEB | .ldEC | .ldED | .ldEE | .ldEH | .ldEL | .unimpl5E | .ldEA |
    .ldHB | .ldHC | .ldHD | .ldHE | .ldHH | .ldHL | .unimpl66 | .ldHA | .ldLB | .ldLC | .ldLD | .ldLE | .ldLH |
    .ldLL | .unimpl6E | .ldLA | .unimpl70 | .unimpl71 | .unimpl72 | .unimpl73 | .unimpl74 | .unimpl75 | .halt |
    .unimpl77 | .ldAB | .ldAC | .ldAD | .ldAE | .ldAH | .ldAL | .unimpl7E | .ldAA | .unimpl80ToFF _ => none

/-- The data address an instruction accesses in a state, if it accesses one (20_memory.md R56). -/
def dataAddress (i : Instr) (s : State) : Option Word := (addressPair i).map s.get16

/-- The byte an instruction stores at its data address, if it stores one: A, the slot's byte plus or minus one, or the
immediate (20_memory.md R56). -/
def storedByte (i : Instr) (s : State) : Option Byte :=
  match i with
  | .ldIndBcA | .ldIndDeA => some s.a
  | .incIndHl => some (s.mem.read (s.get16 .hl).toNat + 1)
  | .decIndHl => some (s.mem.read (s.get16 .hl).toNat - 1)
  | .ldIndHlD8 v => some v
  | .nop | .ldBcD16 _ | .incBc | .incB | .decB | .ldBD8 _ | .unimpl07 | .ldSpD16Alias _ | .addHlBc | .ldAIndBc |
    .decBc | .incC | .decC | .ldCD8 _ | .unimpl0F | .unimpl10 | .ldDeD16 _ | .incDe | .incD | .decD | .ldDD8 _ |
    .unimpl17 | .unimpl18 | .addHlDe | .ldAIndDe | .decDe | .incE | .decE | .ldED8 _ | .unimpl1F | .unimpl20 |
    .ldHlD16 _ | .unimpl22 | .incHl | .incH | .decH | .ldHD8 _ | .unimpl27 | .unimpl28 | .addHlHl | .unimpl2A |
    .decHl | .incL | .decL | .ldLD8 _ | .unimpl2F | .unimpl30 | .ldSpD16 _ | .unimpl32 | .incSp | .unimpl37 |
    .unimpl38 | .addHlSp | .unimpl3A | .decSp | .incA | .decA | .ldAD8 _ | .unimpl3F | .ldBB | .ldBC | .ldBD |
    .ldBE | .ldBH | .ldBL | .unimpl46 | .ldBA | .ldCB | .ldCC | .ldCD | .ldCE | .ldCH | .ldCL | .unimpl4E | .ldCA |
    .ldDB | .ldDC | .ldDD | .ldDE | .ldDH | .ldDL | .unimpl56 | .ldDA | .ldEB | .ldEC | .ldED | .ldEE | .ldEH |
    .ldEL | .unimpl5E | .ldEA | .ldHB | .ldHC | .ldHD | .ldHE | .ldHH | .ldHL | .unimpl66 | .ldHA | .ldLB | .ldLC |
    .ldLD | .ldLE | .ldLH | .ldLL | .unimpl6E | .ldLA | .unimpl70 | .unimpl71 | .unimpl72 | .unimpl73 | .unimpl74 |
    .unimpl75 | .halt | .unimpl77 | .ldAB | .ldAC | .ldAD | .ldAE | .ldAH | .ldAL | .unimpl7E | .ldAA |
    .unimpl80ToFF _ => none

/-- The address an instruction stores to in a state, if it stores: its data address, when there is a stored byte. -/
def storeAddress (i : Instr) (s : State) : Option Word := (storedByte i s).bind (fun _ => dataAddress i s)

/-- The cells an instruction may write: its destination slot or the two halves of its destination pair. -/
def destRegs : Instr → List Reg8
  | .ldBcD16 _ | .incBc | .decBc => [.b, .c]
  | .ldDeD16 _ | .incDe | .decDe => [.d, .e]
  | .addHlBc | .addHlDe | .ldHlD16 _ | .incHl | .addHlHl | .decHl | .addHlSp => [.h, .l]
  | .incB | .decB | .ldBD8 _ | .ldBB | .ldBC | .ldBD | .ldBE | .ldBH | .ldBL | .ldBA => [.b]
  | .incC | .decC | .ldCD8 _ | .ldCB | .ldCC | .ldCD | .ldCE | .ldCH | .ldCL | .ldCA => [.c]
  | .incD | .decD | .ldDD8 _ | .ldDB | .ldDC | .ldDD | .ldDE | .ldDH | .ldDL | .ldDA => [.d]
  | .incE | .decE | .ldED8 _ | .ldEB | .ldEC | .ldED | .ldEE | .ldEH | .ldEL | .ldEA => [.e]
  | .incH | .decH | .ldHD8 _ | .ldHB | .ldHC | .ldHD | .ldHE | .ldHH | .ldHL | .ldHA => [.h]
  | .incL | .decL | .ldLD8 _ | .ldLB | .ldLC | .ldLD | .ldLE | .ldLH | .ldLL | .ldLA => [.l]
  | .ldAIndBc | .ldAIndDe | .incA | .decA | .ldAD8 _ | .ldAB | .ldAC | .ldAD | .ldAE | .ldAH | .ldAL | .ldAA => [.a]
  | .nop | .ldIndBcA | .unimpl07 | .ldSpD16Alias _ | .unimpl0F | .unimpl10 | .ldIndDeA | .unimpl17 | .unimpl18 |
    .unimpl1F | .unimpl20 | .unimpl22 | .unimpl27 | .unimpl28 | .unimpl2A | .unimpl2F | .unimpl30 | .ldSpD16 _ |
    .unimpl32 | .incSp | .incIndHl | .decIndHl | .ldIndHlD8 _ | .unimpl37 | .unimpl38 | .unimpl3A | .decSp |
    .unimpl3F | .unimpl46 | .unimpl4E | .unimpl56 | .unimpl5E | .unimpl66 | .unimpl6E | .unimpl70 | .unimpl71 |
    .unimpl72 | .unimpl73 | .unimpl74 | .unimpl75 | .halt | .unimpl77 | .unimpl7E | .unimpl80ToFF _ => []

/-- The instructions that read or write SP: those of pair index 3 (10_state.md R29). -/
def usesSp : Instr → Bool
  | .ldSpD16 _ | .ldSpD16Alias _ | .incSp | .decSp | .addHlSp => true
  | .nop | .ldBcD16 _ | .ldIndBcA | .incBc | .incB | .decB | .ldBD8 _ | .unimpl07 | .addHlBc | .ldAIndBc | .decBc |
    .incC | .decC | .ldCD8 _ | .unimpl0F | .unimpl10 | .ldDeD16 _ | .ldIndDeA | .incDe | .incD | .decD | .ldDD8 _ |
    .unimpl17 | .unimpl18 | .addHlDe | .ldAIndDe | .decDe | .incE | .decE | .ldED8 _ | .unimpl1F | .unimpl20 |
    .ldHlD16 _ | .unimpl22 | .incHl | .incH | .decH | .ldHD8 _ | .unimpl27 | .unimpl28 | .addHlHl | .unimpl2A |
    .decHl | .incL | .decL | .ldLD8 _ | .unimpl2F | .unimpl30 | .unimpl32 | .incIndHl | .decIndHl | .ldIndHlD8 _ |
    .unimpl37 | .unimpl38 | .unimpl3A | .incA | .decA | .ldAD8 _ | .unimpl3F | .ldBB | .ldBC | .ldBD | .ldBE |
    .ldBH | .ldBL | .unimpl46 | .ldBA | .ldCB | .ldCC | .ldCD | .ldCE | .ldCH | .ldCL | .unimpl4E | .ldCA | .ldDB |
    .ldDC | .ldDD | .ldDE | .ldDH | .ldDL | .unimpl56 | .ldDA | .ldEB | .ldEC | .ldED | .ldEE | .ldEH | .ldEL |
    .unimpl5E | .ldEA | .ldHB | .ldHC | .ldHD | .ldHE | .ldHH | .ldHL | .unimpl66 | .ldHA | .ldLB | .ldLC | .ldLD |
    .ldLE | .ldLH | .ldLL | .unimpl6E | .ldLA | .unimpl70 | .unimpl71 | .unimpl72 | .unimpl73 | .unimpl74 |
    .unimpl75 | .halt | .unimpl77 | .ldAB | .ldAC | .ldAD | .ldAE | .ldAH | .ldAL | .unimpl7E | .ldAA |
    .unimpl80ToFF _ => false

/-- A run of `n` turns of the loop from `s` is safe: none of them faults. -/
def SafeFor (n : Nat) (s : State) : Prop := ∀ k, k ≤ n → ∃ t, steps k s = .next t

/-- From `s` to `t` no diagnostic was emitted (46_unimplemented.md R191). -/
def NoDiagnostics (s t : State) : Prop := t.log = s.log

end Sys2Proof.Machine
end

