-- ==== Sys2Proof/Certificates/Slice0/Obligations.lean ====
section
/-! DEFINITION. The statements for the provers. Each docstring names the rule or section of spec/ it formalises; the texts of
OBLIGATIONS.json say the same in words. A clause that rests on a decision of the spec (D<n> of 92_eei_decisions.md) or on a
choice of the model names it with its log entry. -/

open Sys2Proof Sys2Proof.Machine

/-- O1. For every well-formed instruction i, with every operand at every value, and whatever bytes follow: decode (encode
i ++ rest) answers i and leaves rest. The encoder is written from the formats and fields, the decoder from the byte-
by-byte map. The numeric bytes are the spec's decision D1 (log 1). (30_encoding.md section 1 (formats) and section 3
(the opcode table), 92_eei_decisions.md D1) -/
def Obligations.DecodeOfEncode : Prop :=
  ∀ (i : Instr) (rest : List Byte), i.wf = true → decode (encode i ++ rest) = .ok (i, rest)

/-- O2. Whatever bytes the decoder reads an instruction i from, i is well formed and the bytes are encode i followed by
what was left over: no bit of an encoding is dropped and no two byte strings mean one instruction. The numeric bytes
are the spec's decision D1 (log 1). (30_encoding.md section 3 (the opcode table) and section 4 (unimplemented bytes),
92_eei_decisions.md D1) -/
def Obligations.EncodeOfDecode : Prop :=
  ∀ (bytes : List Byte) (i : Instr) (rest : List Byte),
    decode bytes = .ok (i, rest) → i.wf = true ∧ bytes = encode i ++ rest

/-- O3. Every opcode byte, with two bytes after it, decodes; the instruction is of the unimplemented family exactly when
the byte is one of the 18 listed below 0x40, one of the 14 moves through slot 6, or 0x80 or above. The bytes are the
spec's decisions D1 and D3 (logs 1 and 13). (30_encoding.md section 4 (unimplemented, reserved and hint encodings),
92_eei_decisions.md D1, 92_eei_decisions.md D3) -/
def Obligations.UnimplementedByteSet : Prop :=
  ∀ opc b1 b2 : Byte, ∃ i rest, decode [opc, b1, b2] = .ok (i, rest) ∧
    (i.family = .unimplemented ↔
      opc.toNat ∈ [0x07, 0x0F, 0x10, 0x17, 0x18, 0x1F, 0x20, 0x22, 0x27, 0x28, 0x2A, 0x2F, 0x30, 0x32, 0x37, 0x38, 0x3A,
        0x3F, 0x46, 0x4E, 0x56, 0x5E, 0x66, 0x6E, 0x70, 0x71, 0x72, 0x73, 0x74, 0x75, 0x77, 0x7E] ∨
      0x80 ≤ opc.toNat)

/-- O4. Whatever bytes an instruction is decoded from, the number of bytes it takes is the length its opcode byte selects:
3 for LD rr,d16 and the alias byte, 2 for LD r,d8, 1 for every other, wired or not. (R80) -/
def Obligations.InstructionLength : Prop :=
  ∀ (opc : Byte) (tail : List Byte) (i : Instr) (rest : List Byte), decode (opc :: tail) = .ok (i, rest) →
    (opc :: tail).length = (opcodeForm opc).length + rest.length ∧
    (opcodeForm opc).length =
      (if i.family = .ldPairImm ∨ i.family = .ldSpAlias then 3 else if i.family = .ldImm8 then 2 else 1)

/-- O5. On all 256 opcode bytes, the byte-by-byte map and the decoder by format P, I, S and M with its exclusions select
the same instruction, immediates included. The field positions are the spec's decision D1 (log 1). (30_encoding.md
section 7 (other facts of the table), 92_eei_decisions.md D1) -/
def Obligations.FormatDecoderAgrees : Prop :=
  ∀ opc : Byte, opcodeForm opc = formatForm opc

/-- O6. Words written bit by bit from the formats Z, P, I, S and M, one at least per family, decode to their instructions,
the d16 low half first. The words 01_110_000 and 11010011 have no table row and decode to unimplemented bytes. The
bits are the spec's decision D1 (log 1); that the word 01_110_000, of the shape of a move to slot 6, is not wired is
its decision D3 (log 13). (30_encoding.md section 1 (formats) and section 2 (immediates), 30_encoding.md section 3
(the opcode table) and section 4 (unimplemented bytes), 92_eei_decisions.md D1, 92_eei_decisions.md D3) -/
def Obligations.SpecWordsDecode : Prop :=
  decode [0b00000000] = .ok (.nop, []) ∧ decode [0b01110110] = .ok (.halt, []) ∧
  decode [0b00_00_0001, 0x06, 0x00] = .ok (.ldBcD16 0x0006, []) ∧
  decode [0b00_10_0001, 0xFF, 0x0F] = .ok (.ldHlD16 0x0FFF, []) ∧
  decode [0b00001000, 0x00, 0xC0] = .ok (.ldSpD16Alias 0xC000, []) ∧
  decode [0b000_1_0_010] = .ok (.ldIndDeA, []) ∧ decode [0b000_0_1_010] = .ok (.ldAIndBc, []) ∧
  decode [0b00_11_0011] = .ok (.incSp, []) ∧ decode [0b00_01_1011] = .ok (.decDe, []) ∧
  decode [0b00_10_1001] = .ok (.addHlHl, []) ∧ decode [0b00_110_100] = .ok (.incIndHl, []) ∧
  decode [0b00_111_101] = .ok (.decA, []) ∧ decode [0b00_001_110, 0x80] = .ok (.ldCD8 0x80, []) ∧
  decode [0b01_111_000] = .ok (.ldAB, []) ∧ decode [0b01_110_000] = .ok (.unimpl70, []) ∧
  decode [0b11010011] = .ok (.unimpl80ToFF 0xD3, [])

/-- O7. In a run that has not ended and with no latency left, when the bytes at PC decode to an instruction i, the step is
exec of i, with its immediates already read, on the state whose PC is moved past the bytes of i: the whole effect
happens in the fetching tick. That PC wraps past 0xFFFF is the spec's decision D9 (log 8). (R235, 92_eei_decisions.md
D9) -/
def Obligations.StepRunsDecodedInstruction : Prop :=
  ∀ (s : State) (i : Instr) (rest : List Byte), s.ended = false → s.rem = 0 →
    decode (s.bytesFrom 3 s.pc) = .ok (i, rest) →
    step s = exec i (s.setPc (s.pc + BitVec.ofNat 16 (encode i).length))

/-- O8. In a run that has not ended, a step that finds rem greater than zero decrements it and changes nothing else. That
the exit test precedes a latency tick is the spec's decision D19 (log 19). (70_reset_and_hazards.md section 2 (the run
loop and the tick), 92_eei_decisions.md D19) -/
def Obligations.StepBurnsLatency : Prop :=
  ∀ (s : State) (n : Nat), s.ended = false → s.rem = n + 1 → step s = .next { s with rem := n }

/-- O9. In a run that has not ended and with no latency left, when the buffer ends before the instruction at PC has all
its immediate bytes, the step faults with MemOutOfRange at the address of the first missing byte. The fault is the
spec's decision D10 (log 7). That PC wraps past 0xFFFF is the spec's decision D9 (log 8). (20_memory.md section 1
(access outside the buffer), 92_eei_decisions.md D10, 92_eei_decisions.md D9) -/
def Obligations.StepFaultsOnMissingImmediate : Prop :=
  ∀ s : State, s.ended = false → s.rem = 0 → decode (s.bytesFrom 3 s.pc) = .error .missingImmediate →
    step s = .fault (.memOutOfRange (s.pc + BitVec.ofNat 16 (s.bytesFrom 3 s.pc).length))

/-- O10. When the core is halted or PC is at or past the end of the buffer, any number of steps leaves the state as it is.
That a step after the end answers the same state is the model's choice (log 6). (70_reset_and_hazards.md section 2
(the end of a run), 60_exceptions.md section 6 (power and wait states)) -/
def Obligations.EndedRunRests : Prop :=
  ∀ (s : State) (n : Nat), (s.halted = true ∨ s.memSize ≤ s.pc.toNat) → steps n s = .next s

/-- O11. In a run that has not ended and with no latency left, when the byte at PC is that of an unimplemented
instruction, the step is no fault: it appends Diag of that byte to the log, moves PC to the next byte, and changes
nothing else. That PC wraps past 0xFFFF is the spec's decision D9 (log 8). (R201, 92_eei_decisions.md D9) -/
def Obligations.MissLogsAndContinues : Prop :=
  ∀ (s : State) (i : Instr) (rest : List Byte), s.ended = false → s.rem = 0 →
    decode (s.bytesFrom 3 s.pc) = .ok (i, rest) → i.family = .unimplemented →
    step s = .next { s with pc := s.pc + 1, log := s.log ++ [{ byte := s.mem.read s.pc.toNat }] }

/-- O12. After construction every byte reads 0x00, at any capacity and launch values; after clear() every byte reads 0x00;
after load every loaded byte that lies inside the buffer reads as loaded. (R40) -/
def Obligations.MemoryStartsZeroed : Prop :=
  (∀ (n : Nat) (i : Init) (a : Nat), (State.construct n i).mem.read a = 0x00) ∧
  (∀ (s : State) (a : Nat), s.clear.mem.read a = 0x00) ∧
  ∀ (s : State) (bytes : List Byte) (offset k : Nat) (v : Byte), bytes[k]? = some v → offset + k < s.memSize →
    ∃ t, s.load bytes offset = .ok t ∧ t.mem.read (offset + k) = v

/-- O13. After construction with capacity n and launch values i: PC is 0x0000, rem is 0, the log is empty, halted is false
(the entry of the first run), and the registers, SP and the flags are those of i. PC and rem are the spec's decision
D7 (log 4); State.reset is this construction at one n and one i that the model names (logs 2 and 3). (10_state.md
section 5 (values at construction and at the start of a run), 92_eei_decisions.md D7, 92_eei_decisions.md D6) -/
def Obligations.ConstructionValues : Prop :=
  (∀ (n : Nat) (i : Init), ∃ s, s = State.construct n i ∧ s.pc = 0x0000 ∧ s.rem = 0 ∧ s.log = [] ∧ s.halted = false ∧
    s.memSize = n ∧ (s.b, s.c, s.d, s.e, s.h, s.l, s.a) = (i.b, i.c, i.d, i.e, i.h, i.l, i.a) ∧ s.sp = i.sp ∧
    (s.fZ, s.fN, s.fH, s.fC) = (i.fZ, i.fN, i.fH, i.fC)) ∧
  ∃ n i, State.reset = State.construct n i ∧ 1 ≤ n ∧ n ≤ 65536

/-- O14. Entering a run sets halted to false and keeps every other field; so a bounded run of any length gives the same
outcome whatever halted was when it was called, and runs on from where the last one stopped. That nothing else is
reset is the spec's decision D8 (log 18). That the bounded run counts ticks is its decision D20 (log 20). That a step
after the end of a run answers the same state is the model's choice (log 6). (10_state.md section 5 (values at
construction and at the start of a run), 92_eei_decisions.md D8, 92_eei_decisions.md D20) -/
def Obligations.RunEntryClearsOnlyHalted : Prop :=
  (∀ s : State, s.enterRun = { s with halted := false }) ∧
  (∀ (n : Nat) (s : State) (v : Bool), runN n (s.setHalted v) = runN n s) ∧
  ∀ (m n : Nat) (s t : State), runN m s = .next t → t.halted = false → runN n t = runN (m + n) s

/-- O15. State.Inv holds at State.reset, and at State.construct n i for every n from 1 to 65536 and every i. The capacity
of State.reset is the model's choice (log 2). (10_state.md section 5 (values at construction and at the start of a
run), 00_scope.md section 4 (implementation parameters)) -/
def Obligations.InvariantAtReset : Prop :=
  State.reset.Inv ∧ ∀ (n : Nat) (i : Init), 1 ≤ n → n ≤ 65536 → (State.construct n i).Inv

/-- O16. If State.Inv holds of s and the step answers a next state, State.Inv holds of it: a legal capacity, memory in
canonical form and inside the buffer, rem at most 2, no latency left once halted, and PC not past the end of the
buffer. The canonical form is the model's (log 25). That a step after the end of a run answers the same state is the
model's choice (log 6). (10_state.md section 4 (execution state), 70_reset_and_hazards.md section 2 (the end of a
run), 70_reset_and_hazards.md section 3 (hazards software must respect), 92_eei_decisions.md D26) -/
def Obligations.StepKeepsInvariant : Prop :=
  ∀ s t : State, s.Inv → step s = .next t → t.Inv

/-- O17. MEM_SIZE is the same after a step as before it, for every state. That it is held in State is the model's choice
(log 2). That a step after the end of a run answers the same state is the model's choice (log 6). (20_memory.md
section 5 (the host's memory operations)) -/
def Obligations.CapacityNeverChanges : Prop :=
  ∀ s t : State, step s = .next t → t.memSize = s.memSize

/-- O18. The list that holds the memory has one canonical form: two canonical lists with the same byte at every address
are the same list. The representation is the model's (log 25). (20_memory.md section 1 (the address space)) -/
def Obligations.CanonicalMemoryIsUnique : Prop :=
  ∀ m k : Memory, m.wf = true → k.wf = true → (∀ a, m.read a = k.read a) → m = k

/-- O19. Two states that differ only in the log step alike and differ afterwards only in the log; a step keeps the events
emitted so far and appends at most one. (R39) -/
def Obligations.LogIsOutputOnly : Prop :=
  (∀ (s : State) (l : List Diag), onNext (fun t => { t with log := [] }) (step { s with log := l }) =
    onNext (fun t => { t with log := [] }) (step s)) ∧
  ∀ s t : State, step s = .next t → ∃ d, t.log = s.log ++ d ∧ d.length ≤ 1

/-- O20. Whatever next state exec answers, the log has gained exactly Diag of the opcode byte when the instruction is of
the unimplemented family, and nothing otherwise. (R214) -/
def Obligations.OneEventPerUnrecognisedByte : Prop :=
  ∀ (i : Instr) (s t : State), exec i s = .next t →
    t.log = s.log ++ (if i.family = .unimplemented then [{ byte := opcodeByte i }] else [])

/-- O21. Entering a run makes halted false. For every instruction and state, exec does the same whatever halted is, and
after it halted is true if the instruction is HALT and what it was otherwise. The exit test is its one reader: it ends
the run when halted is true. (R34) -/
def Obligations.HaltedFlagUse : Prop :=
  (∀ s : State, s.enterRun.halted = false) ∧
  (∀ (i : Instr) (s : State) (v : Bool),
    exec i (s.setHalted v) = onNext (fun t => t.setHalted (v || decide (i = .halt))) (exec i s)) ∧
  ∀ (s : State), s.halted = true → s.ended = true

/-- O22. With the fetch done, exec leaves PC and the capacity as they are, and does the same whatever PC is: there is no
jump, call, return or PC-relative form. (10_state.md section 2 (the program counter), 70_reset_and_hazards.md section
2 (control flow)) -/
def Obligations.ExecLeavesPcAndCapacity : Prop :=
  ∀ (i : Instr) (s : State) (w : Word),
    exec i (s.setPc w) = onNext (fun t => t.setPc w) (exec i s) ∧
    ∀ t, exec i s = .next t → t.pc = s.pc ∧ t.memSize = s.memSize

/-- O23. Whatever next state exec answers: ADD HL,rr keeps Zero and makes Subtraction false; INC r and INC (HL) keep Carry
and make Subtraction false; DEC r and DEC (HL) keep Carry and make Subtraction true; every other instruction and every
unimplemented byte keeps all four. What is kept where the source is silent is the spec's decision D12 (log 11).
(10_state.md section 3 (flags), 92_eei_decisions.md D2, 92_eei_decisions.md D12) -/
def Obligations.FlagWriters : Prop :=
  ∀ (i : Instr) (s t : State), exec i s = .next t →
    (if i.family = .addHl then t.fZ = s.fZ ∧ t.fN = false
     else if i.family = .inc8 then t.fC = s.fC ∧ t.fN = false
     else if i.family = .dec8 then t.fC = s.fC ∧ t.fN = true
     else (t.fZ, t.fN, t.fH, t.fC) = (s.fZ, s.fN, s.fH, s.fC))

/-- O24. For every instruction and state, exec from two states that differ only in the flags ends alike, and the next
states differ only in the flags. (10_state.md section 3 (flags)) -/
def Obligations.FlagsAreNotRead : Prop :=
  ∀ (i : Instr) (s : State) (z n hc cy : Bool),
    onNext (fun t => t.setFlags false false false false) (exec i (s.setFlags z n hc cy)) =
      onNext (fun t => t.setFlags false false false false) (exec i s)

/-- O25. Every instruction but LD SP,d16, its alias byte, INC SP, DEC SP and ADD HL,SP does the same whatever SP is and
leaves it as it was; ADD HL,SP reads SP and leaves it as it was; no instruction's data address depends on SP. (R29) -/
def Obligations.SpUsedByPairThreeOnly : Prop :=
  (∀ (i : Instr) (s : State) (v : Word), (∀ w, i ≠ .ldSpD16 w) → (∀ w, i ≠ .ldSpD16Alias w) → i ≠ .incSp → i ≠ .decSp →
    i ≠ .addHlSp → exec i (s.setSp v) = onNext (fun t => t.setSp v) (exec i s)) ∧
  (∀ s t : State, exec .addHlSp s = .next t → t.sp = s.sp) ∧
  ∀ (i : Instr) (s : State) (v : Word), dataAddress i (s.setSp v) = dataAddress i s

/-- O26. Every instruction but LD (BC),A, LD (DE),A, LD A,(BC), LD A,(DE), INC (HL), DEC (HL) and LD (HL),d8 does the same
whatever the memory holds and leaves it as it was; and a cell takes a byte from memory only in LD A,(BC) and LD
A,(DE): of any other instruction the cells afterwards do not depend on the memory; and A goes to memory only in LD
(BC),A and LD (DE),A: after any other instruction the memory does not depend on A. (R134) -/
def Obligations.DataMemoryUsers : Prop :=
  (∀ (i : Instr) (s : State) (m : Memory), i ≠ .ldIndBcA → i ≠ .ldIndDeA → i ≠ .ldAIndBc → i ≠ .ldAIndDe →
    i ≠ .incIndHl → i ≠ .decIndHl → (∀ v, i ≠ .ldIndHlD8 v) →
    exec i { s with mem := m } = onNext (fun t => { t with mem := m }) (exec i s)) ∧
  (∀ (i : Instr) (s t u : State) (m : Memory), i ≠ .ldAIndBc → i ≠ .ldAIndDe → exec i s = .next t →
    exec i { s with mem := m } = .next u → ∀ r, u.getReg r = t.getReg r) ∧
  ∀ (i : Instr) (s t u : State) (v : Byte), i ≠ .ldIndBcA → i ≠ .ldIndDeA → exec i s = .next t →
    exec i { s with a := v } = .next u → u.mem = t.mem

/-- O27. Whatever next state exec answers, every address other than the instruction's store address (BC for LD (BC),A; DE
for LD (DE),A; HL for INC (HL), DEC (HL) and LD (HL),d8; none for all other instructions) reads as before, and the
store address reads the stored byte: A, the old byte plus or minus one, or the immediate. (20_memory.md section 2
(access widths and counts), 20_memory.md section 1 (the address space)) -/
def Obligations.MemoryFrame : Prop :=
  ∀ (i : Instr) (s t : State), exec i s = .next t →
    (∀ a : Nat, (∀ w, storeAddress i s = some w → a ≠ w.toNat) → t.mem.read a = s.mem.read a) ∧
    ∀ w v, storeAddress i s = some w → storedByte i s = some v → t.mem.read w.toNat = v

/-- O28. Whatever next state exec answers, each of the seven cells that is not the instruction's destination (or a half of
its destination pair) is as before, and SP is as before unless the instruction is LD SP,d16, its alias, INC SP or DEC
SP. (10_state.md section 1 (the 8-bit register file), 10_state.md section 2 (the 16-bit pair views and SP)) -/
def Obligations.RegisterFrame : Prop :=
  ∀ (i : Instr) (s t : State), exec i s = .next t →
    (∀ r, r ∉ destRegs i → t.getReg r = s.getReg r) ∧
    ((∀ w, i ≠ .ldSpD16 w) → (∀ w, i ≠ .ldSpD16Alias w) → i ≠ .incSp → i ≠ .decSp → t.sp = s.sp)

/-- O29. Inside the buffer a write succeeds and changes only memory, the byte written is read back there, and every other
address reads as before; at or past the capacity, read and write fault with the address. The fault is the spec's
decision D10 (log 7). (20_memory.md section 1 (the address space), 20_memory.md section 4 (ordering),
92_eei_decisions.md D10) -/
def Obligations.MemoryPrimitives : Prop :=
  ∀ (s : State) (addr : Word) (v : Byte),
    (addr.toNat < s.memSize → ∃ t, s.memWrite addr v = .ok t ∧ t = { s with mem := t.mem } ∧ t.memRead addr = .ok v ∧
      ∀ other, other ≠ addr → t.memRead other = s.memRead other) ∧
    (s.memSize ≤ addr.toNat →
      s.memRead addr = .error (.memOutOfRange addr) ∧ s.memWrite addr v = .error (.memOutOfRange addr))

/-- O30. When an instruction stores a byte v at the address PC points to after its own bytes, the next Fetch8 reads v and
moves PC on by one: self-modifying code needs no fence. That PC wraps past 0xFFFF is the spec's decision D9 (log 8).
(20_memory.md section 4 (ordering), 92_eei_decisions.md D9) -/
def Obligations.StoreSeenByNextFetch : Prop :=
  ∀ (i : Instr) (s t : State) (v : Byte), exec i s = .next t → storeAddress i s = some s.pc → storedByte i s = some v →
    t.fetch8 = .ok (v, t.setPc (s.pc + 1))

/-- O31. Reading and writing a cell slot reads and writes that cell and always succeeds; reading and writing slot 6 is
MemRead and MemWrite at the address composed of H and L, with its fault; and a slot read after it was written gives
the value written. (R22) -/
def Obligations.SlotAccessors : Prop :=
  ∀ (s : State) (v : Byte),
    (∀ r, s.get8 (.reg r) = .ok (s.getReg r) ∧ s.set8 (.reg r) v = .ok (s.setReg r v)) ∧
    s.get8 .indHl = s.memRead (compose16 s.h s.l) ∧ s.set8 .indHl v = s.memWrite (compose16 s.h s.l) v ∧
    ∀ k t, s.set8 k v = .ok t → t.get8 k = .ok v

/-- O32. A write to a cell is seen by the next read of its pair, and a write to a pair by the next read of either cell,
for BC, DE and HL; a write to a cell leaves SP alone and a write to SP leaves every cell alone. That B and D are the
high halves of BC and DE is the spec's decision D13 (log 14). (R26, 92_eei_decisions.md D13) -/
def Obligations.PairAliasing : Prop :=
  ∀ (s : State) (x : Byte) (v : Word),
    (((s.setReg .b x).get16 .bc).toNat = 256 * x.toNat + s.c.toNat ∧
      ((s.setReg .c x).get16 .bc).toNat = 256 * s.b.toNat + x.toNat ∧
      ((s.setReg .d x).get16 .de).toNat = 256 * x.toNat + s.e.toNat ∧
      ((s.setReg .e x).get16 .de).toNat = 256 * s.d.toNat + x.toNat ∧
      ((s.setReg .h x).get16 .hl).toNat = 256 * x.toNat + s.l.toNat ∧
      ((s.setReg .l x).get16 .hl).toNat = 256 * s.h.toNat + x.toNat) ∧
    (((s.set16 .bc v).b.toNat, (s.set16 .bc v).c.toNat) = (v.toNat / 256, v.toNat % 256) ∧
      ((s.set16 .de v).d.toNat, (s.set16 .de v).e.toNat) = (v.toNat / 256, v.toNat % 256) ∧
      ((s.set16 .hl v).h.toNat, (s.set16 .hl v).l.toNat) = (v.toNat / 256, v.toNat % 256)) ∧
    ∀ r, (s.setReg r x).sp = s.sp ∧ (s.set16 .sp v).getReg r = s.getReg r

/-- O33. Bit 0 of the packed byte is Zero, bit 1 Subtraction, bit 2 HalfCarry, bit 3 Carry, and bits 7:4 are 0; unpacking
the packed byte leaves the state as it was; packing what was unpacked from a byte gives its low four bits. Bits 7:4
are the spec's decision D27 (log 16). (10_state.md section 3 (packed flags view), 92_eei_decisions.md D27) -/
def Obligations.PackedFlagsRoundTrip : Prop :=
  (∀ s : State, s.packF.toNat = s.fZ.toNat + 2 * s.fN.toNat + 4 * s.fH.toNat + 8 * s.fC.toNat ∧ s.unpackF s.packF = s) ∧
  ∀ (s : State) (v : Byte), (s.unpackF v).packF = v &&& 0x0F

/-- O34. For an offset of zero or more load succeeds and changes only memory: an address inside the buffer and in the
loaded range reads its loaded byte, every other address reads as before. A negative offset is refused. Offsets at or
past the capacity and negative ones are the spec's decision D24 (log 21). (20_memory.md section 5 (the host's memory
operations), 92_eei_decisions.md D24) -/
def Obligations.LoadCopiesWhatFits : Prop :=
  (∀ (s : State) (bytes : List Byte) (offset : Nat), ∃ t, s.load bytes offset = .ok t ∧ t = { s with mem := t.mem } ∧
    ∀ a : Nat, t.mem.read a =
      if offset ≤ a ∧ a < s.memSize then (bytes[a - offset]?).getD (s.mem.read a) else s.mem.read a) ∧
  ∀ (s : State) (bytes : List Byte) (offset : Int), offset < 0 → s.load bytes offset = .error .negativeOffset

/-- O35. exec answers a fault exactly when the instruction has a data address at or past the capacity, and the fault is
MemOutOfRange at that address; it never answers a refusal. The fault is the spec's decision D10 (log 7).
(60_exceptions.md section 1 (exceptions), 92_eei_decisions.md D10) -/
def Obligations.FaultsExactlyOutsideBuffer : Prop :=
  ∀ (i : Instr) (s : State),
    (∀ f, exec i s = .fault f ↔ ∃ a, dataAddress i s = some a ∧ s.memSize ≤ a.toNat ∧ f = .memOutOfRange a) ∧
    ∀ r, exec i s ≠ .refused r

/-- O36. For each of the constructors of Instr and every state in which the instruction's data address (if it has one) is
below the capacity, exec answers a next state. (60_exceptions.md section 1 (exceptions), 20_memory.md section 2
(access widths and counts)) -/
def Obligations.EveryInstructionCompletes : Prop :=
  ∀ (i : Instr) (s : State), (∀ a, dataAddress i s = some a → a.toNat < s.memSize) → ∃ t, exec i s = .next t

/-- O37. When MEM_SIZE is 65536 no address is outside the buffer: from any state at all, any number of steps answers a
next state. That PC wraps past 0xFFFF is the spec's decision D9 (log 8). That a step after the end of a run answers
the same state is the model's choice (log 6). (60_exceptions.md section 1 (exceptions), 20_memory.md section 1 (access
outside the buffer), 92_eei_decisions.md D9) -/
def Obligations.FullMemoryNeverFaults : Prop :=
  ∀ (n : Nat) (s : State), s.memSize = 65536 → ∃ t, steps n s = .next t

/-- O38. Whatever next state exec answers, rem is 2 after LD rr,d16 and the alias byte, 1 after LD (rr),A, LD A,(rr), INC
rr, DEC rr, ADD HL,rr, LD r,d8 and LD (HL),d8, 0 after NOP, HALT, INC r, INC (HL), DEC r, DEC (HL) and LD r,r', and
what it was after an unimplemented byte. The alias byte's cost is the spec's decision D4 (log 12).
(70_reset_and_hazards.md section 4 (timing), 92_eei_decisions.md D4) -/
def Obligations.DeclaredCosts : Prop :=
  ∀ (i : Instr) (s t : State), exec i s = .next t →
    t.rem = (match i.family with
      | .ldPairImm | .ldSpAlias => 2
      | .storeA | .loadA | .incPair | .decPair | .addHl | .ldImm8 => 1
      | .nop | .halt | .inc8 | .dec8 | .move8 => 0
      | .unimplemented => s.rem)

/-- O39. When the bytes at PC of a run that has not ended, with no latency left, decode to a wired instruction of cost c,
and the state after its fetching tick has not ended the run, then c ticks bring the run to the same state with no
latency left. (70_reset_and_hazards.md section 2 (the instruction-level view), 70_reset_and_hazards.md section 4
(timing)) -/
def Obligations.TicksEqualDeclaredCost : Prop :=
  ∀ (s t : State) (i : Instr) (rest : List Byte) (c : Nat), s.ended = false → s.rem = 0 →
    decode (s.bytesFrom 3 s.pc) = .ok (i, rest) → i.family.cost = some c → step s = .next t → t.ended = false →
    steps c s = .next { t with rem := 0 }

/-- O40. Any number of ticks from any state is matched by at most as many whole-instruction steps from that state with its
latency removed: they reach the same next state up to rem, or the same fault; and any number of whole-instruction
steps is matched by some number of ticks. So no register, flag, memory byte, diagnostic or halt depends on timing.
That a step after the end of a run answers the same state is the model's choice (log 6). (70_reset_and_hazards.md
section 2 (the instruction-level view), 70_reset_and_hazards.md section 4 (timing)) -/
def Obligations.TimingChangesNoResult : Prop :=
  (∀ (n : Nat) (s : State),
    (∀ t, steps n s = .next t → ∃ m, m ≤ n ∧ instrSteps m (s.setRem 0) = .next (t.setRem 0)) ∧
    (∀ f, steps n s = .fault f → ∃ m, m ≤ n ∧ instrSteps m (s.setRem 0) = .fault f)) ∧
  ∀ (m : Nat) (s : State),
    (∀ t, instrSteps m (s.setRem 0) = .next t → ∃ n u, steps n s = .next u ∧ u.setRem 0 = t.setRem 0) ∧
    (∀ f, instrSteps m (s.setRem 0) = .fault f → ∃ n, steps n s = .fault f)

/-- O41. When MEM_SIZE is below 65536, three ticks for each byte from PC to the end of the buffer, plus the latency left
at the start, are enough: by then the run has faulted, or has ended by HALT or by overrun. Holds of every state,
whatever its registers and memory. That the bounded run counts ticks is the spec's decision D20 (log 20). That a step
after the end of a run answers the same state is the model's choice (log 6). (70_reset_and_hazards.md section 3
(hazards software must respect), 92_eei_decisions.md D20) -/
def Obligations.SmallMemoryRunsEnd : Prop :=
  ∀ s : State, s.memSize < 65536 →
    (∃ f, runN (3 * (s.memSize - s.pc.toNat) + s.rem) s = .fault f) ∨
    ∃ t, runN (3 * (s.memSize - s.pc.toNat) + s.rem) s = .next t ∧ t.ended = true

/-- O42. From a state that meets the invariant, a run that returns does so either halted, with rem 0, or not halted with
PC at the end of the buffer, and the second only when MEM_SIZE is below 65536. That a step after the end of a run
answers the same state is the model's choice (log 6). (70_reset_and_hazards.md section 2 (the end of a run)) -/
def Obligations.RunEndsHaltedOrOverrun : Prop :=
  ∀ s t : State, s.Inv → RunReturns s t →
    (t.halted = true ∧ t.rem = 0) ∨ (t.halted = false ∧ t.pc.toNat = t.memSize ∧ t.memSize < 65536)

/-- O43. NOP is byte 00; exec answers the same state with rem 0, for every state. With rem 0 and its one byte fetched, the
step changes PC alone. The byte is the spec's decision D1 (log 1). That PC wraps past 0xFFFF is the spec's decision D9
(log 8). (R110, 92_eei_decisions.md D1, 92_eei_decisions.md D9) -/
def Obligations.NopOnlyAdvances : Prop :=
  encode .nop = [0x00] ∧
  (∀ s : State, exec .nop s = .next { s with rem := 0 }) ∧
  ∀ s : State, s.ended = false → s.rem = 0 → s.mem.read s.pc.toNat = 0x00 → step s = .next { s with pc := s.pc + 1 }

/-- O44. HALT is byte 76, the byte of the move from slot 6 to slot 6; exec answers the state with halted true and rem 0;
that state has ended the run, its PC, registers, flags and memory as they were, and entering a run again only clears
halted. The byte is the spec's decision D1 (log 1); that entering a run resets nothing else is its decision D8 (log
18). (R111, 92_eei_decisions.md D1, 92_eei_decisions.md D8) -/
def Obligations.HaltStopsTheRun : Prop :=
  encode .halt = [0x76] ∧ encode .halt = [formatM .indHl .indHl] ∧
  ∀ s : State, ∃ t, exec .halt s = .next t ∧ t = { s with halted := true, rem := 0 } ∧ t.ended = true ∧
    t.enterRun = { s with halted := false, rem := 0 }

/-- O45. For every state and immediate bytes lo, hi: LD BC, DE, HL,d16 (01, 11, 21 lo hi) put hi in the high cell and lo
in the low one, LD SP,d16 (31 lo hi) puts hi:lo in SP, and so does the alias byte 08, which stores nothing; rem is 2;
nothing else changes. Completes in every state. The bytes are the spec's decision D1 (log 1), the alias byte and its
cost its decision D4 (log 12), B and D as the high cells of BC and DE its decision D13 (log 14). A missing immediate
byte is StepFaultsOnMissingImmediate. (R120, R121, R122, R123, R124, 92_eei_decisions.md D1, 92_eei_decisions.md D4,
92_eei_decisions.md D13) -/
def Obligations.LoadPairImmediate : Prop :=
  ∀ (lo hi : Byte) (s : State),
    (encode (.ldBcD16 (compose16 hi lo)) = [0x01, lo, hi] ∧
      exec (.ldBcD16 (compose16 hi lo)) s = .next { s with b := hi, c := lo, rem := 2 }) ∧
    (encode (.ldDeD16 (compose16 hi lo)) = [0x11, lo, hi] ∧
      exec (.ldDeD16 (compose16 hi lo)) s = .next { s with d := hi, e := lo, rem := 2 }) ∧
    (encode (.ldHlD16 (compose16 hi lo)) = [0x21, lo, hi] ∧
      exec (.ldHlD16 (compose16 hi lo)) s = .next { s with h := hi, l := lo, rem := 2 }) ∧
    (encode (.ldSpD16 (compose16 hi lo)) = [0x31, lo, hi] ∧
      exec (.ldSpD16 (compose16 hi lo)) s = .next { s with sp := compose16 hi lo, rem := 2 }) ∧
    (encode (.ldSpD16Alias (compose16 hi lo)) = [0x08, lo, hi] ∧
      exec (.ldSpD16Alias (compose16 hi lo)) s = .next { s with sp := compose16 hi lo, rem := 2 }) ∧
    (compose16 hi lo).toNat = 256 * hi.toNat + lo.toNat

/-- O46. For each of LD (BC),A (02) and LD (DE),A (12): with the pair's value below the capacity, exec answers a next
state in which the byte at that address is A, every other address reads as before, rem is 1 and nothing else changes;
otherwise it faults with MemOutOfRange at that address. The bytes are the spec's decision D1 (log 1), the fault its
decision D10 (log 7). (R130, R131, 92_eei_decisions.md D1, 92_eei_decisions.md D10) -/
def Obligations.StoreAccumulator : Prop :=
  encode .ldIndBcA = [0x02] ∧ encode .ldIndDeA = [0x12] ∧
  ∀ (i : Instr) (p : Pair) (s : State), (i, p) ∈ [(.ldIndBcA, .bc), (.ldIndDeA, .de)] →
    ((s.get16 p).toNat < s.memSize → ∃ t, exec i s = .next t ∧ t = { s with mem := t.mem, rem := 1 } ∧
      ∀ a, t.mem.read a = if a = (s.get16 p).toNat then s.a else s.mem.read a) ∧
    (s.memSize ≤ (s.get16 p).toNat → exec i s = .fault (.memOutOfRange (s.get16 p)))

/-- O47. For each of LD A,(BC) (0A) and LD A,(DE) (1A): with the pair's value below the capacity, exec answers the state
with A the byte at that address and rem 1, nothing else changed, no flag and no byte of memory; otherwise it faults
with MemOutOfRange at that address. The bytes are the spec's decision D1 (log 1), the fault its decision D10 (log 7).
(R132, R133, 92_eei_decisions.md D1, 92_eei_decisions.md D10) -/
def Obligations.LoadAccumulator : Prop :=
  encode .ldAIndBc = [0x0A] ∧ encode .ldAIndDe = [0x1A] ∧
  ∀ (i : Instr) (p : Pair) (s : State), (i, p) ∈ [(.ldAIndBc, .bc), (.ldAIndDe, .de)] →
    ((s.get16 p).toNat < s.memSize →
      exec i s = .next { s with a := s.mem.read (s.get16 p).toNat, rem := 1 }) ∧
    (s.memSize ≤ (s.get16 p).toNat → exec i s = .fault (.memOutOfRange (s.get16 p)))

/-- O48. For each of INC BC (03), INC DE (13), INC HL (23), INC SP (33) and every state: exec answers a next state in
which the pair is its old value plus one modulo 65536, rem is 1, and nothing else changes: no flag, no memory, no
other register. The bytes are the spec's decision D1 (log 1). (R140, R141, R142, R143, 92_eei_decisions.md D1) -/
def Obligations.IncrementPair : Prop :=
  [Pair.bc, .de, .hl, .sp].map (fun p => encode (incPairOf p)) = [[0x03], [0x13], [0x23], [0x33]] ∧
  ∀ (p : Pair) (s : State), ∃ t, exec (incPairOf p) s = .next t ∧
    (t.get16 p).toNat = ((s.get16 p).toNat + 1) % 65536 ∧ t = { s.set16 p (t.get16 p) with rem := 1 }

/-- O49. For each of DEC BC (0B), DEC DE (1B), DEC HL (2B), DEC SP (3B) and every state: exec answers a next state in
which the pair is its old value plus 65535 modulo 65536, rem is 1, and nothing else changes: no flag, no memory, no
other register. The bytes are the spec's decision D1 (log 1). (R144, R145, R146, R147, 92_eei_decisions.md D1) -/
def Obligations.DecrementPair : Prop :=
  [Pair.bc, .de, .hl, .sp].map (fun p => encode (decPairOf p)) = [[0x0B], [0x1B], [0x2B], [0x3B]] ∧
  ∀ (p : Pair) (s : State), ∃ t, exec (decPairOf p) s = .next t ∧
    (t.get16 p).toNat = ((s.get16 p).toNat + 65535) % 65536 ∧ t = { s.set16 p (t.get16 p) with rem := 1 }

/-- O50. For each of ADD HL,BC (09), ADD HL,DE (19), ADD HL,HL (29), ADD HL,SP (39) and every state: exec answers a next
state in which HL is the sum modulo 65536 of HL and the operand, both as they were before, Subtraction is false,
HalfCarry is true exactly when the low 12 bits overflow, Carry exactly when the sum exceeds 65535, rem is 1 and
nothing else changes, Zero included; for ADD HL,HL HalfCarry is bit 11 and Carry bit 15 of HL before. The bytes are
the spec's decision D1 (log 1); that the flags are assigned both ways is its decision D11 (log 11). (R148, R149, R150,
R151, 92_eei_decisions.md D1, 92_eei_decisions.md D11) -/
def Obligations.AddPairToHl : Prop :=
  [Pair.bc, .de, .hl, .sp].map (fun p => encode (addHlOf p)) = [[0x09], [0x19], [0x29], [0x39]] ∧
  (∀ (p : Pair) (s : State), ∃ t, exec (addHlOf p) s = .next t ∧
    (t.get16 .hl).toNat = ((s.get16 .hl).toNat + (s.get16 p).toNat) % 65536 ∧ t.fN = false ∧
    (t.fH = true ↔ (s.get16 .hl).toNat % 4096 + (s.get16 p).toNat % 4096 > 4095) ∧
    (t.fC = true ↔ (s.get16 .hl).toNat + (s.get16 p).toNat > 65535) ∧
    t = { s.set16 .hl (t.get16 .hl) with fN := t.fN, fH := t.fH, fC := t.fC, rem := 1 }) ∧
  ∀ s t : State, exec .addHlHl s = .next t → t.fH = (s.get16 .hl).getLsbD 11 ∧ t.fC = (s.get16 .hl).getLsbD 15

/-- O51. For each of INC B, C, D, E, H, L, A and every state: exec answers a next state in which the cell is its old value
plus one modulo 256, Subtraction is false, HalfCarry is true exactly when the low nibble was 15, Zero exactly when the
result is 0, that is when the old value was 0xFF, rem is 0, and nothing else changes, Carry and the other half of the
pair included. The bytes are the spec's decision D1 (log 1), Zero its decision D2 (log 9), HalfCarry D23 (log 10), the
kept Carry D12 (log 11). (R160, 92_eei_decisions.md D1, 92_eei_decisions.md D2, 92_eei_decisions.md D12,
92_eei_decisions.md D23) -/
def Obligations.IncrementRegister : Prop :=
  [Reg8.b, .c, .d, .e, .h, .l, .a].map (fun r => encode (inc8Of (.reg r))) =
    [[0x04], [0x0C], [0x14], [0x1C], [0x24], [0x2C], [0x3C]] ∧
  ∀ (r : Reg8) (s : State), ∃ t, exec (inc8Of (.reg r)) s = .next t ∧
    (t.getReg r).toNat = ((s.getReg r).toNat + 1) % 256 ∧ t.fN = false ∧
    (t.fH = true ↔ (s.getReg r).toNat % 16 = 15) ∧ (t.fZ = true ↔ t.getReg r = 0) ∧
    (t.fZ = true ↔ s.getReg r = 0xFF) ∧
    t = { s.setReg r (t.getReg r) with fZ := t.fZ, fN := t.fN, fH := t.fH, rem := 0 }

/-- O52. For INC (HL) (byte 34): with HL below the capacity, exec answers a next state in which the byte at HL is its old
value plus one modulo 256, every other address reads as before, Subtraction is false, HalfCarry is true exactly when
the low nibble was 15, Zero exactly when the result is 0, rem is 0, and nothing else changes; otherwise it faults with
MemOutOfRange at HL. The bytes are the spec's decision D1 (log 1), Zero its decision D2 (log 9), HalfCarry D23 (log
10), the kept Carry D12 (log 11), the fault D10 (log 7). (R161, 92_eei_decisions.md D1, 92_eei_decisions.md D2,
92_eei_decisions.md D12, 92_eei_decisions.md D23, 92_eei_decisions.md D10) -/
def Obligations.IncrementMemoryByte : Prop :=
  encode (inc8Of .indHl) = [0x34] ∧
  ∀ (s : State) (old : Byte), s.mem.read (s.get16 .hl).toNat = old →
    ((s.get16 .hl).toNat < s.memSize → ∃ t, exec (inc8Of .indHl) s = .next t ∧
      (t.mem.read (s.get16 .hl).toNat).toNat = (old.toNat + 1) % 256 ∧
      (∀ a, a ≠ (s.get16 .hl).toNat → t.mem.read a = s.mem.read a) ∧ t.fN = false ∧
      (t.fH = true ↔ old.toNat % 16 = 15) ∧ (t.fZ = true ↔ t.mem.read (s.get16 .hl).toNat = 0) ∧
      t = { s with mem := t.mem, fZ := t.fZ, fN := t.fN, fH := t.fH, rem := 0 }) ∧
    (s.memSize ≤ (s.get16 .hl).toNat → exec (inc8Of .indHl) s = .fault (.memOutOfRange (s.get16 .hl)))

/-- O53. For each of DEC B, C, D, E, H, L, A and every state: exec answers a next state in which the cell is its old value
plus 255 modulo 256, Subtraction is true, HalfCarry is true exactly when the low nibble was 0, Zero exactly when the
result is 0, that is when the old value was 0x01, rem is 0, and nothing else changes, Carry and the other half of the
pair included. The bytes are the spec's decision D1 (log 1), Zero its decision D2 (log 9), HalfCarry D23 (log 10), the
kept Carry D12 (log 11). (R162, 92_eei_decisions.md D1, 92_eei_decisions.md D2, 92_eei_decisions.md D12,
92_eei_decisions.md D23) -/
def Obligations.DecrementRegister : Prop :=
  [Reg8.b, .c, .d, .e, .h, .l, .a].map (fun r => encode (dec8Of (.reg r))) =
    [[0x05], [0x0D], [0x15], [0x1D], [0x25], [0x2D], [0x3D]] ∧
  ∀ (r : Reg8) (s : State), ∃ t, exec (dec8Of (.reg r)) s = .next t ∧
    (t.getReg r).toNat = ((s.getReg r).toNat + 255) % 256 ∧ t.fN = true ∧
    (t.fH = true ↔ (s.getReg r).toNat % 16 = 0) ∧ (t.fZ = true ↔ t.getReg r = 0) ∧
    (t.fZ = true ↔ s.getReg r = 0x01) ∧
    t = { s.setReg r (t.getReg r) with fZ := t.fZ, fN := t.fN, fH := t.fH, rem := 0 }

/-- O54. For DEC (HL) (byte 35): with HL below the capacity, exec answers a next state in which the byte at HL is its old
value plus 255 modulo 256, every other address reads as before, Subtraction is true, HalfCarry is true exactly when
the low nibble was 0, Zero exactly when the result is 0, rem is 0, and nothing else changes; otherwise it faults with
MemOutOfRange at HL. The bytes are the spec's decision D1 (log 1), Zero its decision D2 (log 9), HalfCarry D23 (log
10), the kept Carry D12 (log 11), the fault D10 (log 7). (R163, 92_eei_decisions.md D1, 92_eei_decisions.md D2,
92_eei_decisions.md D12, 92_eei_decisions.md D23, 92_eei_decisions.md D10) -/
def Obligations.DecrementMemoryByte : Prop :=
  encode (dec8Of .indHl) = [0x35] ∧
  ∀ (s : State) (old : Byte), s.mem.read (s.get16 .hl).toNat = old →
    ((s.get16 .hl).toNat < s.memSize → ∃ t, exec (dec8Of .indHl) s = .next t ∧
      (t.mem.read (s.get16 .hl).toNat).toNat = (old.toNat + 255) % 256 ∧
      (∀ a, a ≠ (s.get16 .hl).toNat → t.mem.read a = s.mem.read a) ∧ t.fN = true ∧
      (t.fH = true ↔ old.toNat % 16 = 0) ∧ (t.fZ = true ↔ t.mem.read (s.get16 .hl).toNat = 0) ∧
      t = { s with mem := t.mem, fZ := t.fZ, fN := t.fN, fH := t.fH, rem := 0 }) ∧
    (s.memSize ≤ (s.get16 .hl).toNat → exec (dec8Of .indHl) s = .fault (.memOutOfRange (s.get16 .hl)))

/-- O55. For each of LD B, C, D, E, H, L, A,d8 (06, 0E, 16, 1E, 26, 2E, 3E, each followed by d8), every immediate and
every state: exec answers a next state in which the cell is the immediate, every other cell is as before, rem is 1,
and nothing else changes. Completes in every state. The bytes are the spec's decision D1 (log 1). A missing immediate
byte is StepFaultsOnMissingImmediate. (R164, 92_eei_decisions.md D1) -/
def Obligations.LoadRegisterImmediate : Prop :=
  (∀ v, [Reg8.b, .c, .d, .e, .h, .l, .a].map (fun r => encode (ldImm8Of (.reg r) v)) =
    [[0x06, v], [0x0E, v], [0x16, v], [0x1E, v], [0x26, v], [0x2E, v], [0x3E, v]]) ∧
  ∀ (r : Reg8) (v : Byte) (s : State), ∃ t, exec (ldImm8Of (.reg r) v) s = .next t ∧ t.getReg r = v ∧
    (∀ q, q ≠ r → t.getReg q = s.getReg q) ∧
    t = { s with b := t.b, c := t.c, d := t.d, e := t.e, h := t.h, l := t.l, a := t.a, rem := 1 }

/-- O56. For LD (HL),d8 (36 d8) and every immediate: with HL below the capacity, exec answers a next state in which the
byte at HL is the immediate, every other address reads as before, rem is 1, and nothing else changes; otherwise it
faults with MemOutOfRange at HL. The byte is the spec's decision D1 (log 1), the fault its decision D10 (log 7). A
missing immediate byte is StepFaultsOnMissingImmediate. (R165, 92_eei_decisions.md D1, 92_eei_decisions.md D10) -/
def Obligations.StoreImmediateAtHl : Prop :=
  (∀ v, encode (.ldIndHlD8 v) = [0x36, v]) ∧
  ∀ (v : Byte) (s : State),
    ((s.get16 .hl).toNat < s.memSize → ∃ t, exec (.ldIndHlD8 v) s = .next t ∧ t = { s with mem := t.mem, rem := 1 } ∧
      ∀ a, t.mem.read a = if a = (s.get16 .hl).toNat then v else s.mem.read a) ∧
    (s.memSize ≤ (s.get16 .hl).toNat → exec (.ldIndHlD8 v) s = .fault (.memOutOfRange (s.get16 .hl)))

/-- O57. For each of the 49 moves, destination and source any of B, C, D, E, H, L, A: its byte is 0x40 plus 8 times the
destination's index plus the source's; exec answers, in every state, a next state in which the destination is what the
source was, every other cell is as before, rem is 0, and nothing else changes; a move of a cell onto itself changes
nothing but rem. The byte is the spec's decision D1 (log 1). (R180, 92_eei_decisions.md D1) -/
def Obligations.MoveRegister : Prop :=
  ∀ dst src : Reg8,
    (∃ byte, encode (move8Of dst src) = [byte] ∧ byte.toNat = 0x40 + 8 * dst.index.toNat + src.index.toNat) ∧
    ∀ s : State, ∃ t, exec (move8Of dst src) s = .next t ∧ t.getReg dst = s.getReg src ∧
      (∀ q, q ≠ dst → t.getReg q = s.getReg q) ∧
      t = { s with b := t.b, c := t.c, d := t.d, e := t.e, h := t.h, l := t.l, a := t.a, rem := 0 } ∧
      (dst = src → t = { s with rem := 0 })

/-- O58. For every instruction of the unimplemented family, the 32 rows unimpl07 to unimpl7E and unimpl80ToFF, and every
state: it is one byte long, and exec answers the state with Diag of that byte appended to the log and nothing else
changed, rem included; the same byte met twice emits twice. The set of bytes is the spec's decision D1 (log 1), the
event its decision D15 (log 22). (R190, 92_eei_decisions.md D1, 92_eei_decisions.md D15) -/
def Obligations.UnimplementedEmitsDiagnostic : Prop :=
  ∀ i : Instr, i.family = .unimplemented → ∃ opc, encode i = [opc] ∧
    ∀ s : State, exec i s = .next { s with log := s.log ++ [{ byte := opc }] } ∧
      exec i { s with log := s.log ++ [{ byte := opc }] } =
        .next { s with log := s.log ++ [{ byte := opc }, { byte := opc }] }

/-- O59. For every state s and launch values i, s.newCpu i keeps the capacity and the buffer of s; its PC is 0x0000, rem
0, the log empty, halted false (the entry of its first run), and its registers, SP and flags are those of i. Loading
before it and loading after it end in the same state. After clear() it is what construction with the capacity of s
gives. It keeps the invariant. PC and rem are the spec's decision D7 (log 4), the launch values its decision D6.
(70_reset_and_hazards.md section 1 (reset and boot), 70_reset_and_hazards.md section 3 (hazards software must
respect), 20_memory.md section 5 (the host's memory operations), 92_eei_decisions.md D6, 92_eei_decisions.md D7) -/
def Obligations.NewCpuOverUsedMemory : Prop :=
  (∀ (s : State) (i : Init), ∃ t, t = s.newCpu i ∧ t.mem = s.mem ∧ t.memSize = s.memSize ∧ t.pc = 0x0000 ∧ t.rem = 0 ∧
    t.log = [] ∧ t.halted = false ∧ (t.b, t.c, t.d, t.e, t.h, t.l, t.a) = (i.b, i.c, i.d, i.e, i.h, i.l, i.a) ∧
    t.sp = i.sp ∧ (t.fZ, t.fN, t.fH, t.fC) = (i.fZ, i.fN, i.fH, i.fC)) ∧
  (∀ (s : State) (i : Init) (bytes : List Byte) (offset : Nat), ∃ t,
    s.load bytes offset = .ok t ∧ (s.newCpu i).load bytes offset = .ok (t.newCpu i)) ∧
  (∀ (s : State) (i : Init), s.clear.newCpu i = State.construct s.memSize i) ∧
  ∀ (s : State) (i : Init), s.Inv → (s.newCpu i).Inv
end

