-- ==== Sys2Proof/Laws/Encoding.lean ====
section
/-! SUPPORT. The opcode map as a finite table: a case split over the 256 bytes, and what each form says of the instructions it
makes. -/

namespace Sys2Proof

/-- To prove something of every byte, prove it of the 256 numerals. -/
theorem byte_cases {P : Byte → Prop} (h : ∀ n, n < 256 → P (BitVec.ofNat 8 n)) (b : Byte) : P b := by
  have := h b.toNat b.isLt
  simpa using this

/-- The length a form announces is the length of the family it leads to. -/
theorem opcodeForm_family_length (b : Byte) :
    match opcodeForm b with
    | .plain i => i.family.length = 1
    | .imm8 k => ∀ v, (k v).family.length = 2
    | .imm16 k => ∀ v, (k v).family.length = 3 := by
  revert b
  refine byte_cases fun n hn => ?_
  interval_cases n <;> first | exact rfl | exact fun v => rfl

theorem encode_length (i : Instr) : (encode i).length = i.family.length := by
  cases i <;> rfl

end Sys2Proof
end

