-- ==== Sys2Proof/Laws/Memory.lean ====
section
/-! SUPPORT. The memory: a read after a write, the canonical form every operation keeps, and that nothing outside the buffer is
ever listed. -/

namespace Sys2Proof.Machine

theorem Memory.read_nil (addr : Nat) : Memory.read [] addr = Config.blankByte := rfl

theorem Memory.read_cons (c : Host.Cell) (m : Memory) (addr : Nat) :
    Memory.read (c :: m) addr = if c.1 = addr then c.2 else m.read addr := rfl

theorem Memory.read_erase (m : Memory) (x y : Nat) :
    (m.erase x).read y = if y = x then Config.blankByte else m.read y := by
  induction m with
  | nil => simp [Memory.erase, Memory.read]
  | cons c m ih =>
    unfold Memory.erase at ih ⊢
    by_cases hc : c.1 = x <;> simp only [List.filter_cons, hc, bne_self_eq_false, Bool.false_eq_true, if_false,
      bne_iff_ne, ne_eq, not_false_eq_true, if_true, Memory.read_cons, ih]
    · grind
    · grind

theorem Memory.read_insert (m : Memory) (x y : Nat) (v : Byte) (hx : m.read x = Config.blankByte)
    (hnot : ∀ c ∈ m, c.1 ≠ x) : (m.insert x v).read y = if y = x then v else m.read y := by
  induction m with
  | nil => simp only [Memory.insert, Memory.read_cons, Memory.read_nil]; grind
  | cons c m ih =>
    have hc : c.1 ≠ x := hnot c (by simp)
    have hm : ∀ k ∈ m, k.1 ≠ x := fun k hk => hnot k (by simp [hk])
    have hr : Memory.read m x = Config.blankByte := by simpa [Memory.read_cons, hc] using hx
    unfold Memory.insert
    split
    · simp only [Memory.read_cons]; grind
    · simp only [Memory.read_cons, ih hr hm]; grind

theorem Memory.not_mem_erase (m : Memory) (x : Nat) : ∀ c ∈ m.erase x, c.1 ≠ x := by
  simp [Memory.erase]

/-- What every address reads as after a write. -/
theorem Memory.read_write (m : Memory) (x y : Nat) (v : Byte) :
    (m.write x v).read y = if y = x then v else m.read y := by
  unfold Memory.write
  split
  · next h => rw [Memory.read_erase, h]
  · rw [Memory.read_insert _ _ _ _ (by simp [Memory.read_erase]) (Memory.not_mem_erase m x), Memory.read_erase]
    grind

@[simp] theorem Memory.read_write_self (m : Memory) (x : Nat) (v : Byte) : (m.write x v).read x = v := by
  simp [Memory.read_write]

theorem Memory.read_write_of_ne (m : Memory) (x y : Nat) (v : Byte) (h : y ≠ x) : (m.write x v).read y = m.read y := by
  simp [Memory.read_write, h]

theorem Memory.wf_cons (c : Host.Cell) (m : Memory) :
    Memory.wf (c :: m) = true ↔ c.2 ≠ Config.blankByte ∧ (∀ k ∈ m, c.1 < k.1) ∧ Memory.wf m = true := by
  simp [Memory.wf, and_assoc]

theorem Memory.wf_erase (m : Memory) (x : Nat) (h : m.wf = true) : (m.erase x).wf = true := by
  induction m with
  | nil => exact h
  | cons c m ih =>
    obtain ⟨hv, hlt, hm⟩ := (Memory.wf_cons c m).mp h
    have ih' := ih hm
    unfold Memory.erase at ih' ⊢
    rw [List.filter_cons]
    split
    · exact (Memory.wf_cons _ _).mpr ⟨hv, fun k hk => hlt k (List.mem_of_mem_filter hk), ih'⟩
    · exact ih'

theorem Memory.mem_insert (m : Memory) (x : Nat) (v : Byte) (k : Host.Cell) (h : k ∈ m.insert x v) :
    k = (x, v) ∨ k ∈ m := by
  induction m with
  | nil => simpa [Memory.insert] using h
  | cons c m ih =>
    unfold Memory.insert at h
    split at h
    · simpa using h
    · rcases List.mem_cons.mp h with rfl | h
      · simp
      · rcases ih h with h | h <;> simp [h]

theorem Memory.wf_insert (m : Memory) (x : Nat) (v : Byte) (hv : v ≠ Config.blankByte) (hnot : ∀ c ∈ m, c.1 ≠ x)
    (h : m.wf = true) : (m.insert x v).wf = true := by
  induction m with
  | nil => simpa [Memory.insert, Memory.wf] using hv
  | cons c m ih =>
    obtain ⟨hcv, hlt, hm⟩ := (Memory.wf_cons c m).mp h
    have hc : c.1 ≠ x := hnot c (by simp)
    unfold Memory.insert
    split
    · next hx =>
      refine (Memory.wf_cons _ _).mpr ⟨hv, fun k hk => ?_, h⟩
      rcases List.mem_cons.mp hk with rfl | hk
      · exact hx
      · exact Nat.lt_trans hx (hlt k hk)
    · next hx =>
      refine (Memory.wf_cons _ _).mpr ⟨hcv, fun k hk => ?_, ih (fun k hk => hnot k (by simp [hk])) hm⟩
      rcases Memory.mem_insert m x v k hk with rfl | hk
      · simp only; omega
      · exact hlt k hk

/-- A write keeps the canonical form. -/
theorem Memory.wf_write (m : Memory) (x : Nat) (v : Byte) (h : m.wf = true) : (m.write x v).wf = true := by
  unfold Memory.write
  split
  · exact Memory.wf_erase m x h
  · next hv => exact Memory.wf_insert _ _ _ hv (Memory.not_mem_erase m x) (Memory.wf_erase m x h)

/-- A write inside the buffer lists nothing outside it. -/
theorem Memory.inside_write (m : Memory) (n x : Nat) (v : Byte) (hx : x < n) (h : m.inside n = true) :
    (m.write x v).inside n = true := by
  simp only [Memory.inside, List.all_eq_true, decide_eq_true_eq] at h ⊢
  have he : ∀ k ∈ m.erase x, k.1 < n := fun k hk => h k (List.mem_of_mem_filter hk)
  unfold Memory.write
  split
  · exact he
  · intro k hk
    rcases Memory.mem_insert _ x v k hk with rfl | hk
    · exact hx
    · exact he k hk

/-- An address below every listed one reads as blank. -/
theorem Memory.read_of_lt_head (m : Memory) (x : Nat) (h : ∀ k ∈ m, x < k.1) : m.read x = Config.blankByte := by
  induction m with
  | nil => rfl
  | cons c m ih =>
    have hc := h c (by simp)
    rw [Memory.read_cons, if_neg (by omega)]
    exact ih (fun k hk => h k (by simp [hk]))

theorem State.reset_mem_wf : State.reset.mem.wf = true := rfl

/-- `load` byte by byte changes only memory, keeps the canonical form and stays inside the buffer. -/
theorem State.placeBytes_spec (bytes : List Byte) (s : State) (addr : Nat) :
    s.placeBytes bytes addr = { s with mem := (s.placeBytes bytes addr).mem } ∧
      (s.mem.wf = true → (s.placeBytes bytes addr).mem.wf = true) ∧
      (s.mem.inside s.memSize = true → (s.placeBytes bytes addr).mem.inside s.memSize = true) := by
  induction bytes generalizing s addr with
  | nil => exact ⟨rfl, id, id⟩
  | cons v rest ih =>
    unfold State.placeBytes
    split
    · next h =>
      obtain ⟨e, w, i⟩ := ih { s with mem := s.mem.write addr v } (addr + 1)
      exact ⟨by rw [e], fun hw => w (Memory.wf_write _ _ _ hw), fun hi => i (Memory.inside_write _ _ _ _ h hi)⟩
    · exact ⟨rfl, id, id⟩

/-- Placing an instruction at PC keeps the canonical form. -/
theorem State.placeAtFetch_wf (bytes : List Byte) (s : State) (addr : Word) (h : s.mem.wf = true) :
    (s.placeAtFetch bytes addr).mem.wf = true := by
  induction bytes generalizing s addr with
  | nil => exact h
  | cons v rest ih =>
    unfold State.placeAtFetch
    refine ih _ _ ?_
    split
    · exact Memory.wf_write _ _ _ h
    · exact h

end Sys2Proof.Machine
end

