-- ==== Sys2Proof/Laws/State.lean ====
section
/-! SUPPORT. One lemma per field per update of State, so that no later proof unfolds a record update. -/

namespace Sys2Proof.Machine

@[simp] theorem State.b_setPc (s : State) (v : Word) : (s.setPc v).b = s.b := rfl
@[simp] theorem State.c_setPc (s : State) (v : Word) : (s.setPc v).c = s.c := rfl
@[simp] theorem State.d_setPc (s : State) (v : Word) : (s.setPc v).d = s.d := rfl
@[simp] theorem State.e_setPc (s : State) (v : Word) : (s.setPc v).e = s.e := rfl
@[simp] theorem State.h_setPc (s : State) (v : Word) : (s.setPc v).h = s.h := rfl
@[simp] theorem State.l_setPc (s : State) (v : Word) : (s.setPc v).l = s.l := rfl
@[simp] theorem State.a_setPc (s : State) (v : Word) : (s.setPc v).a = s.a := rfl
@[simp] theorem State.sp_setPc (s : State) (v : Word) : (s.setPc v).sp = s.sp := rfl
@[simp] theorem State.pc_setPc (s : State) (v : Word) : (s.setPc v).pc = v := rfl
@[simp] theorem State.fZ_setPc (s : State) (v : Word) : (s.setPc v).fZ = s.fZ := rfl
@[simp] theorem State.fN_setPc (s : State) (v : Word) : (s.setPc v).fN = s.fN := rfl
@[simp] theorem State.fH_setPc (s : State) (v : Word) : (s.setPc v).fH = s.fH := rfl
@[simp] theorem State.fC_setPc (s : State) (v : Word) : (s.setPc v).fC = s.fC := rfl
@[simp] theorem State.halted_setPc (s : State) (v : Word) : (s.setPc v).halted = s.halted := rfl
@[simp] theorem State.rem_setPc (s : State) (v : Word) : (s.setPc v).rem = s.rem := rfl
@[simp] theorem State.memSize_setPc (s : State) (v : Word) : (s.setPc v).memSize = s.memSize := rfl
@[simp] theorem State.mem_setPc (s : State) (v : Word) : (s.setPc v).mem = s.mem := rfl
@[simp] theorem State.log_setPc (s : State) (v : Word) : (s.setPc v).log = s.log := rfl

@[simp] theorem State.b_newCpu (s : State) (i : Init) : (s.newCpu i).b = i.b := rfl
@[simp] theorem State.c_newCpu (s : State) (i : Init) : (s.newCpu i).c = i.c := rfl
@[simp] theorem State.d_newCpu (s : State) (i : Init) : (s.newCpu i).d = i.d := rfl
@[simp] theorem State.e_newCpu (s : State) (i : Init) : (s.newCpu i).e = i.e := rfl
@[simp] theorem State.h_newCpu (s : State) (i : Init) : (s.newCpu i).h = i.h := rfl
@[simp] theorem State.l_newCpu (s : State) (i : Init) : (s.newCpu i).l = i.l := rfl
@[simp] theorem State.a_newCpu (s : State) (i : Init) : (s.newCpu i).a = i.a := rfl
@[simp] theorem State.sp_newCpu (s : State) (i : Init) : (s.newCpu i).sp = i.sp := rfl
@[simp] theorem State.pc_newCpu (s : State) (i : Init) : (s.newCpu i).pc = Config.entryPoint := rfl
@[simp] theorem State.fZ_newCpu (s : State) (i : Init) : (s.newCpu i).fZ = i.fZ := rfl
@[simp] theorem State.fN_newCpu (s : State) (i : Init) : (s.newCpu i).fN = i.fN := rfl
@[simp] theorem State.fH_newCpu (s : State) (i : Init) : (s.newCpu i).fH = i.fH := rfl
@[simp] theorem State.fC_newCpu (s : State) (i : Init) : (s.newCpu i).fC = i.fC := rfl
@[simp] theorem State.halted_newCpu (s : State) (i : Init) : (s.newCpu i).halted = false := rfl
@[simp] theorem State.rem_newCpu (s : State) (i : Init) : (s.newCpu i).rem = 0 := rfl
@[simp] theorem State.memSize_newCpu (s : State) (i : Init) : (s.newCpu i).memSize = s.memSize := rfl
@[simp] theorem State.mem_newCpu (s : State) (i : Init) : (s.newCpu i).mem = s.mem := rfl
@[simp] theorem State.log_newCpu (s : State) (i : Init) : (s.newCpu i).log = [] := rfl

@[simp] theorem State.b_setSp (s : State) (v : Word) : (s.setSp v).b = s.b := rfl
@[simp] theorem State.c_setSp (s : State) (v : Word) : (s.setSp v).c = s.c := rfl
@[simp] theorem State.d_setSp (s : State) (v : Word) : (s.setSp v).d = s.d := rfl
@[simp] theorem State.e_setSp (s : State) (v : Word) : (s.setSp v).e = s.e := rfl
@[simp] theorem State.h_setSp (s : State) (v : Word) : (s.setSp v).h = s.h := rfl
@[simp] theorem State.l_setSp (s : State) (v : Word) : (s.setSp v).l = s.l := rfl
@[simp] theorem State.a_setSp (s : State) (v : Word) : (s.setSp v).a = s.a := rfl
@[simp] theorem State.sp_setSp (s : State) (v : Word) : (s.setSp v).sp = v := rfl
@[simp] theorem State.pc_setSp (s : State) (v : Word) : (s.setSp v).pc = s.pc := rfl
@[simp] theorem State.fZ_setSp (s : State) (v : Word) : (s.setSp v).fZ = s.fZ := rfl
@[simp] theorem State.fN_setSp (s : State) (v : Word) : (s.setSp v).fN = s.fN := rfl
@[simp] theorem State.fH_setSp (s : State) (v : Word) : (s.setSp v).fH = s.fH := rfl
@[simp] theorem State.fC_setSp (s : State) (v : Word) : (s.setSp v).fC = s.fC := rfl
@[simp] theorem State.halted_setSp (s : State) (v : Word) : (s.setSp v).halted = s.halted := rfl
@[simp] theorem State.rem_setSp (s : State) (v : Word) : (s.setSp v).rem = s.rem := rfl
@[simp] theorem State.memSize_setSp (s : State) (v : Word) : (s.setSp v).memSize = s.memSize := rfl
@[simp] theorem State.mem_setSp (s : State) (v : Word) : (s.setSp v).mem = s.mem := rfl
@[simp] theorem State.log_setSp (s : State) (v : Word) : (s.setSp v).log = s.log := rfl

@[simp] theorem State.b_setRem (s : State) (n : Nat) : (s.setRem n).b = s.b := rfl
@[simp] theorem State.c_setRem (s : State) (n : Nat) : (s.setRem n).c = s.c := rfl
@[simp] theorem State.d_setRem (s : State) (n : Nat) : (s.setRem n).d = s.d := rfl
@[simp] theorem State.e_setRem (s : State) (n : Nat) : (s.setRem n).e = s.e := rfl
@[simp] theorem State.h_setRem (s : State) (n : Nat) : (s.setRem n).h = s.h := rfl
@[simp] theorem State.l_setRem (s : State) (n : Nat) : (s.setRem n).l = s.l := rfl
@[simp] theorem State.a_setRem (s : State) (n : Nat) : (s.setRem n).a = s.a := rfl
@[simp] theorem State.sp_setRem (s : State) (n : Nat) : (s.setRem n).sp = s.sp := rfl
@[simp] theorem State.pc_setRem (s : State) (n : Nat) : (s.setRem n).pc = s.pc := rfl
@[simp] theorem State.fZ_setRem (s : State) (n : Nat) : (s.setRem n).fZ = s.fZ := rfl
@[simp] theorem State.fN_setRem (s : State) (n : Nat) : (s.setRem n).fN = s.fN := rfl
@[simp] theorem State.fH_setRem (s : State) (n : Nat) : (s.setRem n).fH = s.fH := rfl
@[simp] theorem State.fC_setRem (s : State) (n : Nat) : (s.setRem n).fC = s.fC := rfl
@[simp] theorem State.halted_setRem (s : State) (n : Nat) : (s.setRem n).halted = s.halted := rfl
@[simp] theorem State.rem_setRem (s : State) (n : Nat) : (s.setRem n).rem = n := rfl
@[simp] theorem State.memSize_setRem (s : State) (n : Nat) : (s.setRem n).memSize = s.memSize := rfl
@[simp] theorem State.mem_setRem (s : State) (n : Nat) : (s.setRem n).mem = s.mem := rfl
@[simp] theorem State.log_setRem (s : State) (n : Nat) : (s.setRem n).log = s.log := rfl

@[simp] theorem State.b_setHalted (s : State) (v : Bool) : (s.setHalted v).b = s.b := rfl
@[simp] theorem State.c_setHalted (s : State) (v : Bool) : (s.setHalted v).c = s.c := rfl
@[simp] theorem State.d_setHalted (s : State) (v : Bool) : (s.setHalted v).d = s.d := rfl
@[simp] theorem State.e_setHalted (s : State) (v : Bool) : (s.setHalted v).e = s.e := rfl
@[simp] theorem State.h_setHalted (s : State) (v : Bool) : (s.setHalted v).h = s.h := rfl
@[simp] theorem State.l_setHalted (s : State) (v : Bool) : (s.setHalted v).l = s.l := rfl
@[simp] theorem State.a_setHalted (s : State) (v : Bool) : (s.setHalted v).a = s.a := rfl
@[simp] theorem State.sp_setHalted (s : State) (v : Bool) : (s.setHalted v).sp = s.sp := rfl
@[simp] theorem State.pc_setHalted (s : State) (v : Bool) : (s.setHalted v).pc = s.pc := rfl
@[simp] theorem State.fZ_setHalted (s : State) (v : Bool) : (s.setHalted v).fZ = s.fZ := rfl
@[simp] theorem State.fN_setHalted (s : State) (v : Bool) : (s.setHalted v).fN = s.fN := rfl
@[simp] theorem State.fH_setHalted (s : State) (v : Bool) : (s.setHalted v).fH = s.fH := rfl
@[simp] theorem State.fC_setHalted (s : State) (v : Bool) : (s.setHalted v).fC = s.fC := rfl
@[simp] theorem State.halted_setHalted (s : State) (v : Bool) : (s.setHalted v).halted = v := rfl
@[simp] theorem State.rem_setHalted (s : State) (v : Bool) : (s.setHalted v).rem = s.rem := rfl
@[simp] theorem State.memSize_setHalted (s : State) (v : Bool) : (s.setHalted v).memSize = s.memSize := rfl
@[simp] theorem State.mem_setHalted (s : State) (v : Bool) : (s.setHalted v).mem = s.mem := rfl
@[simp] theorem State.log_setHalted (s : State) (v : Bool) : (s.setHalted v).log = s.log := rfl

@[simp] theorem State.b_setFlags (s : State) (z n hc cy : Bool) : (s.setFlags z n hc cy).b = s.b := rfl
@[simp] theorem State.c_setFlags (s : State) (z n hc cy : Bool) : (s.setFlags z n hc cy).c = s.c := rfl
@[simp] theorem State.d_setFlags (s : State) (z n hc cy : Bool) : (s.setFlags z n hc cy).d = s.d := rfl
@[simp] theorem State.e_setFlags (s : State) (z n hc cy : Bool) : (s.setFlags z n hc cy).e = s.e := rfl
@[simp] theorem State.h_setFlags (s : State) (z n hc cy : Bool) : (s.setFlags z n hc cy).h = s.h := rfl
@[simp] theorem State.l_setFlags (s : State) (z n hc cy : Bool) : (s.setFlags z n hc cy).l = s.l := rfl
@[simp] theorem State.a_setFlags (s : State) (z n hc cy : Bool) : (s.setFlags z n hc cy).a = s.a := rfl
@[simp] theorem State.sp_setFlags (s : State) (z n hc cy : Bool) : (s.setFlags z n hc cy).sp = s.sp := rfl
@[simp] theorem State.pc_setFlags (s : State) (z n hc cy : Bool) : (s.setFlags z n hc cy).pc = s.pc := rfl
@[simp] theorem State.fZ_setFlags (s : State) (z n hc cy : Bool) : (s.setFlags z n hc cy).fZ = z := rfl
@[simp] theorem State.fN_setFlags (s : State) (z n hc cy : Bool) : (s.setFlags z n hc cy).fN = n := rfl
@[simp] theorem State.fH_setFlags (s : State) (z n hc cy : Bool) : (s.setFlags z n hc cy).fH = hc := rfl
@[simp] theorem State.fC_setFlags (s : State) (z n hc cy : Bool) : (s.setFlags z n hc cy).fC = cy := rfl
@[simp] theorem State.halted_setFlags (s : State) (z n hc cy : Bool) : (s.setFlags z n hc cy).halted = s.halted := rfl
@[simp] theorem State.rem_setFlags (s : State) (z n hc cy : Bool) : (s.setFlags z n hc cy).rem = s.rem := rfl
@[simp] theorem State.memSize_setFlags (s : State) (z n hc cy : Bool) : (s.setFlags z n hc cy).memSize = s.memSize := rfl
@[simp] theorem State.mem_setFlags (s : State) (z n hc cy : Bool) : (s.setFlags z n hc cy).mem = s.mem := rfl
@[simp] theorem State.log_setFlags (s : State) (z n hc cy : Bool) : (s.setFlags z n hc cy).log = s.log := rfl

@[simp] theorem State.b_emit (s : State) (v : Byte) : (s.emit v).b = s.b := rfl
@[simp] theorem State.c_emit (s : State) (v : Byte) : (s.emit v).c = s.c := rfl
@[simp] theorem State.d_emit (s : State) (v : Byte) : (s.emit v).d = s.d := rfl
@[simp] theorem State.e_emit (s : State) (v : Byte) : (s.emit v).e = s.e := rfl
@[simp] theorem State.h_emit (s : State) (v : Byte) : (s.emit v).h = s.h := rfl
@[simp] theorem State.l_emit (s : State) (v : Byte) : (s.emit v).l = s.l := rfl
@[simp] theorem State.a_emit (s : State) (v : Byte) : (s.emit v).a = s.a := rfl
@[simp] theorem State.sp_emit (s : State) (v : Byte) : (s.emit v).sp = s.sp := rfl
@[simp] theorem State.pc_emit (s : State) (v : Byte) : (s.emit v).pc = s.pc := rfl
@[simp] theorem State.fZ_emit (s : State) (v : Byte) : (s.emit v).fZ = s.fZ := rfl
@[simp] theorem State.fN_emit (s : State) (v : Byte) : (s.emit v).fN = s.fN := rfl
@[simp] theorem State.fH_emit (s : State) (v : Byte) : (s.emit v).fH = s.fH := rfl
@[simp] theorem State.fC_emit (s : State) (v : Byte) : (s.emit v).fC = s.fC := rfl
@[simp] theorem State.halted_emit (s : State) (v : Byte) : (s.emit v).halted = s.halted := rfl
@[simp] theorem State.rem_emit (s : State) (v : Byte) : (s.emit v).rem = s.rem := rfl
@[simp] theorem State.memSize_emit (s : State) (v : Byte) : (s.emit v).memSize = s.memSize := rfl
@[simp] theorem State.mem_emit (s : State) (v : Byte) : (s.emit v).mem = s.mem := rfl
@[simp] theorem State.log_emit (s : State) (v : Byte) : (s.emit v).log = s.log ++ [Diag.mk v] := rfl

-- writing a cell
@[simp] theorem State.sp_setReg (s : State) (r : Reg8) (v : Byte) : (s.setReg r v).sp = s.sp := by cases r <;> rfl
@[simp] theorem State.pc_setReg (s : State) (r : Reg8) (v : Byte) : (s.setReg r v).pc = s.pc := by cases r <;> rfl
@[simp] theorem State.fZ_setReg (s : State) (r : Reg8) (v : Byte) : (s.setReg r v).fZ = s.fZ := by cases r <;> rfl
@[simp] theorem State.fN_setReg (s : State) (r : Reg8) (v : Byte) : (s.setReg r v).fN = s.fN := by cases r <;> rfl
@[simp] theorem State.fH_setReg (s : State) (r : Reg8) (v : Byte) : (s.setReg r v).fH = s.fH := by cases r <;> rfl
@[simp] theorem State.fC_setReg (s : State) (r : Reg8) (v : Byte) : (s.setReg r v).fC = s.fC := by cases r <;> rfl
@[simp] theorem State.halted_setReg (s : State) (r : Reg8) (v : Byte) : (s.setReg r v).halted = s.halted := by cases r <;> rfl
@[simp] theorem State.rem_setReg (s : State) (r : Reg8) (v : Byte) : (s.setReg r v).rem = s.rem := by cases r <;> rfl
@[simp] theorem State.memSize_setReg (s : State) (r : Reg8) (v : Byte) : (s.setReg r v).memSize = s.memSize := by cases r <;> rfl
@[simp] theorem State.mem_setReg (s : State) (r : Reg8) (v : Byte) : (s.setReg r v).mem = s.mem := by cases r <;> rfl
@[simp] theorem State.log_setReg (s : State) (r : Reg8) (v : Byte) : (s.setReg r v).log = s.log := by cases r <;> rfl

-- writing a pair
@[simp] theorem State.pc_set16 (s : State) (p : Pair) (v : Word) : (s.set16 p v).pc = s.pc := by cases p <;> rfl
@[simp] theorem State.fZ_set16 (s : State) (p : Pair) (v : Word) : (s.set16 p v).fZ = s.fZ := by cases p <;> rfl
@[simp] theorem State.fN_set16 (s : State) (p : Pair) (v : Word) : (s.set16 p v).fN = s.fN := by cases p <;> rfl
@[simp] theorem State.fH_set16 (s : State) (p : Pair) (v : Word) : (s.set16 p v).fH = s.fH := by cases p <;> rfl
@[simp] theorem State.fC_set16 (s : State) (p : Pair) (v : Word) : (s.set16 p v).fC = s.fC := by cases p <;> rfl
@[simp] theorem State.halted_set16 (s : State) (p : Pair) (v : Word) : (s.set16 p v).halted = s.halted := by cases p <;> rfl
@[simp] theorem State.rem_set16 (s : State) (p : Pair) (v : Word) : (s.set16 p v).rem = s.rem := by cases p <;> rfl
@[simp] theorem State.memSize_set16 (s : State) (p : Pair) (v : Word) : (s.set16 p v).memSize = s.memSize := by cases p <;> rfl
@[simp] theorem State.mem_set16 (s : State) (p : Pair) (v : Word) : (s.set16 p v).mem = s.mem := by cases p <;> rfl
@[simp] theorem State.log_set16 (s : State) (p : Pair) (v : Word) : (s.set16 p v).log = s.log := by cases p <;> rfl

-- the flags of INC, DEC and ADD HL
@[simp] theorem State.b_incFlags (s : State) (v : Byte) : (s.incFlags v).b = s.b := rfl
@[simp] theorem State.c_incFlags (s : State) (v : Byte) : (s.incFlags v).c = s.c := rfl
@[simp] theorem State.d_incFlags (s : State) (v : Byte) : (s.incFlags v).d = s.d := rfl
@[simp] theorem State.e_incFlags (s : State) (v : Byte) : (s.incFlags v).e = s.e := rfl
@[simp] theorem State.h_incFlags (s : State) (v : Byte) : (s.incFlags v).h = s.h := rfl
@[simp] theorem State.l_incFlags (s : State) (v : Byte) : (s.incFlags v).l = s.l := rfl
@[simp] theorem State.a_incFlags (s : State) (v : Byte) : (s.incFlags v).a = s.a := rfl
@[simp] theorem State.sp_incFlags (s : State) (v : Byte) : (s.incFlags v).sp = s.sp := rfl
@[simp] theorem State.pc_incFlags (s : State) (v : Byte) : (s.incFlags v).pc = s.pc := rfl
@[simp] theorem State.fZ_incFlags (s : State) (v : Byte) : (s.incFlags v).fZ = zeroOf (v + 1) := rfl
@[simp] theorem State.fN_incFlags (s : State) (v : Byte) : (s.incFlags v).fN = false := rfl
@[simp] theorem State.fH_incFlags (s : State) (v : Byte) : (s.incFlags v).fH = incHalf v := rfl
@[simp] theorem State.fC_incFlags (s : State) (v : Byte) : (s.incFlags v).fC = s.fC := rfl
@[simp] theorem State.halted_incFlags (s : State) (v : Byte) : (s.incFlags v).halted = s.halted := rfl
@[simp] theorem State.rem_incFlags (s : State) (v : Byte) : (s.incFlags v).rem = s.rem := rfl
@[simp] theorem State.memSize_incFlags (s : State) (v : Byte) : (s.incFlags v).memSize = s.memSize := rfl
@[simp] theorem State.mem_incFlags (s : State) (v : Byte) : (s.incFlags v).mem = s.mem := rfl
@[simp] theorem State.log_incFlags (s : State) (v : Byte) : (s.incFlags v).log = s.log := rfl

@[simp] theorem State.b_decFlags (s : State) (v : Byte) : (s.decFlags v).b = s.b := rfl
@[simp] theorem State.c_decFlags (s : State) (v : Byte) : (s.decFlags v).c = s.c := rfl
@[simp] theorem State.d_decFlags (s : State) (v : Byte) : (s.decFlags v).d = s.d := rfl
@[simp] theorem State.e_decFlags (s : State) (v : Byte) : (s.decFlags v).e = s.e := rfl
@[simp] theorem State.h_decFlags (s : State) (v : Byte) : (s.decFlags v).h = s.h := rfl
@[simp] theorem State.l_decFlags (s : State) (v : Byte) : (s.decFlags v).l = s.l := rfl
@[simp] theorem State.a_decFlags (s : State) (v : Byte) : (s.decFlags v).a = s.a := rfl
@[simp] theorem State.sp_decFlags (s : State) (v : Byte) : (s.decFlags v).sp = s.sp := rfl
@[simp] theorem State.pc_decFlags (s : State) (v : Byte) : (s.decFlags v).pc = s.pc := rfl
@[simp] theorem State.fZ_decFlags (s : State) (v : Byte) : (s.decFlags v).fZ = zeroOf (v - 1) := rfl
@[simp] theorem State.fN_decFlags (s : State) (v : Byte) : (s.decFlags v).fN = true := rfl
@[simp] theorem State.fH_decFlags (s : State) (v : Byte) : (s.decFlags v).fH = decHalf v := rfl
@[simp] theorem State.fC_decFlags (s : State) (v : Byte) : (s.decFlags v).fC = s.fC := rfl
@[simp] theorem State.halted_decFlags (s : State) (v : Byte) : (s.decFlags v).halted = s.halted := rfl
@[simp] theorem State.rem_decFlags (s : State) (v : Byte) : (s.decFlags v).rem = s.rem := rfl
@[simp] theorem State.memSize_decFlags (s : State) (v : Byte) : (s.decFlags v).memSize = s.memSize := rfl
@[simp] theorem State.mem_decFlags (s : State) (v : Byte) : (s.decFlags v).mem = s.mem := rfl
@[simp] theorem State.log_decFlags (s : State) (v : Byte) : (s.decFlags v).log = s.log := rfl

@[simp] theorem State.b_addFlags (s : State) (x y : Word) : (s.addFlags x y).b = s.b := rfl
@[simp] theorem State.c_addFlags (s : State) (x y : Word) : (s.addFlags x y).c = s.c := rfl
@[simp] theorem State.d_addFlags (s : State) (x y : Word) : (s.addFlags x y).d = s.d := rfl
@[simp] theorem State.e_addFlags (s : State) (x y : Word) : (s.addFlags x y).e = s.e := rfl
@[simp] theorem State.h_addFlags (s : State) (x y : Word) : (s.addFlags x y).h = s.h := rfl
@[simp] theorem State.l_addFlags (s : State) (x y : Word) : (s.addFlags x y).l = s.l := rfl
@[simp] theorem State.a_addFlags (s : State) (x y : Word) : (s.addFlags x y).a = s.a := rfl
@[simp] theorem State.sp_addFlags (s : State) (x y : Word) : (s.addFlags x y).sp = s.sp := rfl
@[simp] theorem State.pc_addFlags (s : State) (x y : Word) : (s.addFlags x y).pc = s.pc := rfl
@[simp] theorem State.fZ_addFlags (s : State) (x y : Word) : (s.addFlags x y).fZ = s.fZ := rfl
@[simp] theorem State.fN_addFlags (s : State) (x y : Word) : (s.addFlags x y).fN = false := rfl
@[simp] theorem State.fH_addFlags (s : State) (x y : Word) : (s.addFlags x y).fH = addHalf x y := rfl
@[simp] theorem State.fC_addFlags (s : State) (x y : Word) : (s.addFlags x y).fC = addCarry x y := rfl
@[simp] theorem State.halted_addFlags (s : State) (x y : Word) : (s.addFlags x y).halted = s.halted := rfl
@[simp] theorem State.rem_addFlags (s : State) (x y : Word) : (s.addFlags x y).rem = s.rem := rfl
@[simp] theorem State.memSize_addFlags (s : State) (x y : Word) : (s.addFlags x y).memSize = s.memSize := rfl
@[simp] theorem State.mem_addFlags (s : State) (x y : Word) : (s.addFlags x y).mem = s.mem := rfl
@[simp] theorem State.log_addFlags (s : State) (x y : Word) : (s.addFlags x y).log = s.log := rfl

@[simp] theorem State.getReg_setPc (s : State) (v : Word) (r : Reg8) : (s.setPc v).getReg r = s.getReg r := by cases r <;> rfl
@[simp] theorem State.get16_setPc (s : State) (v : Word) (p : Pair) : (s.setPc v).get16 p = s.get16 p := by cases p <;> rfl
@[simp] theorem State.getReg_setSp (s : State) (v : Word) (r : Reg8) : (s.setSp v).getReg r = s.getReg r := by cases r <;> rfl
@[simp] theorem State.getReg_setRem (s : State) (n : Nat) (r : Reg8) : (s.setRem n).getReg r = s.getReg r := by cases r <;> rfl
@[simp] theorem State.get16_setRem (s : State) (n : Nat) (p : Pair) : (s.setRem n).get16 p = s.get16 p := by cases p <;> rfl
@[simp] theorem State.getReg_setHalted (s : State) (v : Bool) (r : Reg8) : (s.setHalted v).getReg r = s.getReg r := by cases r <;> rfl
@[simp] theorem State.get16_setHalted (s : State) (v : Bool) (p : Pair) : (s.setHalted v).get16 p = s.get16 p := by cases p <;> rfl
@[simp] theorem State.getReg_setFlags (s : State) (z n hc cy : Bool) (r : Reg8) : (s.setFlags z n hc cy).getReg r = s.getReg r := by cases r <;> rfl
@[simp] theorem State.get16_setFlags (s : State) (z n hc cy : Bool) (p : Pair) : (s.setFlags z n hc cy).get16 p = s.get16 p := by cases p <;> rfl
@[simp] theorem State.getReg_emit (s : State) (v : Byte) (r : Reg8) : (s.emit v).getReg r = s.getReg r := by cases r <;> rfl
@[simp] theorem State.get16_emit (s : State) (v : Byte) (p : Pair) : (s.emit v).get16 p = s.get16 p := by cases p <;> rfl
@[simp] theorem State.getReg_incFlags (s : State) (v : Byte) (r : Reg8) : (s.incFlags v).getReg r = s.getReg r := by cases r <;> rfl
@[simp] theorem State.get16_incFlags (s : State) (v : Byte) (p : Pair) : (s.incFlags v).get16 p = s.get16 p := by cases p <;> rfl
@[simp] theorem State.getReg_decFlags (s : State) (v : Byte) (r : Reg8) : (s.decFlags v).getReg r = s.getReg r := by cases r <;> rfl
@[simp] theorem State.get16_decFlags (s : State) (v : Byte) (p : Pair) : (s.decFlags v).get16 p = s.get16 p := by cases p <;> rfl
@[simp] theorem State.getReg_addFlags (s : State) (x y : Word) (r : Reg8) : (s.addFlags x y).getReg r = s.getReg r := by cases r <;> rfl
@[simp] theorem State.get16_addFlags (s : State) (x y : Word) (p : Pair) : (s.addFlags x y).get16 p = s.get16 p := by cases p <;> rfl

theorem State.getReg_setReg (s : State) (r q : Reg8) (v : Byte) :
    (s.setReg r v).getReg q = if q = r then v else s.getReg q := by
  cases r <;> cases q <;> rfl

@[simp] theorem State.getReg_setReg_self (s : State) (r : Reg8) (v : Byte) : (s.setReg r v).getReg r = v := by
  cases r <;> rfl

@[simp] theorem State.setReg_getReg (s : State) (r : Reg8) : s.setReg r (s.getReg r) = s := by
  cases r <;> rfl

@[simp] theorem hi8_compose16 (x y : Byte) : hi8 (compose16 x y) = x := by
  ext k hk; simp [hi8, compose16, BitVec.getElem_extractLsb']; grind

@[simp] theorem lo8_compose16 (x y : Byte) : lo8 (compose16 x y) = y := by
  ext k hk; simp [lo8, compose16, BitVec.getElem_extractLsb']; grind

@[simp] theorem compose16_hi8_lo8 (v : Word) : compose16 (hi8 v) (lo8 v) = v := by
  ext k hk; simp [hi8, lo8, compose16]; grind

theorem compose16_toNat (x y : Byte) : (compose16 x y).toNat = 256 * x.toNat + y.toNat := by
  simp only [compose16, BitVec.toNat_append]
  rw [← Nat.shiftLeft_add_eq_or_of_lt y.isLt, Nat.shiftLeft_eq]; omega

@[simp] theorem State.get16_set16_self (s : State) (p : Pair) (v : Word) : (s.set16 p v).get16 p = v := by
  cases p <;> simp [State.get16, State.set16]

theorem State.get16_set16_of_ne (s : State) (p q : Pair) (v : Word) (h : q ≠ p) :
    (s.set16 p v).get16 q = s.get16 q := by
  cases p <;> cases q <;> first | rfl | exact absurd rfl h

end Sys2Proof.Machine
end

