-- ==== Sys2Proof/Laws/Ops.lean ====
section
/-! SUPPORT. For each shared operation, everything it can do: what it answers and when. -/

namespace Sys2Proof.Machine

theorem State.memRead_of_lt (s : State) (addr : Word) (h : addr.toNat < s.memSize) :
    s.memRead addr = .ok (s.mem.read addr.toNat) := by
  simp [State.memRead, h]

theorem State.memRead_of_ge (s : State) (addr : Word) (h : ¬ addr.toNat < s.memSize) :
    s.memRead addr = .error (.memOutOfRange addr) := by
  simp [State.memRead, h]

theorem State.memWrite_of_lt (s : State) (addr : Word) (v : Byte) (h : addr.toNat < s.memSize) :
    s.memWrite addr v = .ok { s with mem := s.mem.write addr.toNat v } := by
  simp [State.memWrite, h]

theorem State.memWrite_of_ge (s : State) (addr : Word) (v : Byte) (h : ¬ addr.toNat < s.memSize) :
    s.memWrite addr v = .error (.memOutOfRange addr) := by
  simp [State.memWrite, h]

theorem State.fetch8_of_lt (s : State) (h : s.pc.toNat < s.memSize) :
    s.fetch8 = .ok (s.mem.read s.pc.toNat, s.setPc (s.pc + 1)) := by
  simp [State.fetch8, State.memRead_of_lt s _ h]

theorem State.fetch8_of_ge (s : State) (h : ¬ s.pc.toNat < s.memSize) :
    s.fetch8 = .error (.memOutOfRange s.pc) := by
  simp [State.fetch8, State.memRead_of_ge s _ h]

theorem finish_eq_next (n : Nat) (x : Except Fault State) (t : State) :
    finish n x = .next t ↔ ∃ u, x = .ok u ∧ t = u.setRem (n - 1) := by
  cases x <;> simp [finish, eq_comm]

theorem finish_eq_fault (n : Nat) (x : Except Fault State) (f : Fault) : finish n x = .fault f ↔ x = .error f := by
  cases x <;> simp [finish]

theorem finish_ne_refused (n : Nat) (x : Except Fault State) (r : Refusal) : finish n x ≠ .refused r := by
  cases x <;> simp [finish]

/-- The answer of an accumulator store. -/
theorem storeAThrough_eq (p : IndPair) (s : State) :
    storeAThrough p s =
      if (s.get16 (indPair p)).toNat < s.memSize then
        .next ({ s with mem := s.mem.write (s.get16 (indPair p)).toNat s.a }.setRem 1)
      else .fault (.memOutOfRange (s.get16 (indPair p))) := by
  unfold storeAThrough State.memWrite
  split <;> rfl

/-- The answer of an accumulator load. -/
theorem loadAThrough_eq (p : IndPair) (s : State) :
    loadAThrough p s =
      if (s.get16 (indPair p)).toNat < s.memSize then
        .next ((s.setReg .a (s.mem.read (s.get16 (indPair p)).toNat)).setRem 1)
      else .fault (.memOutOfRange (s.get16 (indPair p))) := by
  unfold loadAThrough State.memRead
  split <;> rfl

theorem loadPairImm_eq (p : Pair) (v : Word) (s : State) : loadPairImm p v s = .next ((s.set16 p v).setRem 2) := rfl

theorem incPair_eq (p : Pair) (s : State) : incPair p s = .next ((s.set16 p (s.get16 p + 1)).setRem 1) := rfl

theorem decPair_eq (p : Pair) (s : State) : decPair p s = .next ((s.set16 p (s.get16 p - 1)).setRem 1) := rfl

theorem addHl_eq (p : Pair) (s : State) :
    addHl p s =
      .next (((s.addFlags (s.get16 .hl) (s.get16 p)).set16 .hl (addSum (s.get16 .hl) (s.get16 p))).setRem 1) := rfl

theorem moveReg_eq (dst src : Reg8) (s : State) : moveReg dst src s = .next ((s.setReg dst (s.getReg src)).setRem 0) := rfl

theorem unimplemented_eq (opc : Byte) (s : State) : unimplemented opc s = .next (s.emit opc) := rfl

theorem incSlot_reg_eq (r : Reg8) (s : State) :
    incSlot (.reg r) s = .next (((s.setReg r (s.getReg r + 1)).incFlags (s.getReg r)).setRem 0) := rfl

theorem decSlot_reg_eq (r : Reg8) (s : State) :
    decSlot (.reg r) s = .next (((s.setReg r (s.getReg r - 1)).decFlags (s.getReg r)).setRem 0) := rfl

theorem loadSlotImm_reg_eq (r : Reg8) (v : Byte) (s : State) :
    loadSlotImm (.reg r) v s = .next ((s.setReg r v).setRem 1) := rfl

/-- The answer of INC (HL). -/
theorem incSlot_indHl_eq (s : State) :
    incSlot .indHl s =
      if (s.get16 .hl).toNat < s.memSize then
        .next ((State.incFlags
          { s with mem := s.mem.write (s.get16 .hl).toNat (s.mem.read (s.get16 .hl).toNat + 1) }
          (s.mem.read (s.get16 .hl).toNat)).setRem 0)
      else .fault (.memOutOfRange (s.get16 .hl)) := by
  unfold incSlot
  by_cases h : (s.get16 .hl).toNat < s.memSize
  · simp only [State.get8, State.set8, State.memRead_of_lt s _ h, if_pos h]
    simp only [bind, Except.bind, State.memWrite_of_lt s _ _ h]
    rfl
  · simp only [State.get8, State.memRead_of_ge s _ h, if_neg h]
    rfl

/-- The answer of DEC (HL). -/
theorem decSlot_indHl_eq (s : State) :
    decSlot .indHl s =
      if (s.get16 .hl).toNat < s.memSize then
        .next ((State.decFlags
          { s with mem := s.mem.write (s.get16 .hl).toNat (s.mem.read (s.get16 .hl).toNat - 1) }
          (s.mem.read (s.get16 .hl).toNat)).setRem 0)
      else .fault (.memOutOfRange (s.get16 .hl)) := by
  unfold decSlot
  by_cases h : (s.get16 .hl).toNat < s.memSize
  · simp only [State.get8, State.set8, State.memRead_of_lt s _ h, if_pos h]
    simp only [bind, Except.bind, State.memWrite_of_lt s _ _ h]
    rfl
  · simp only [State.get8, State.memRead_of_ge s _ h, if_neg h]
    rfl

/-- The answer of LD (HL),d8. -/
theorem loadSlotImm_indHl_eq (v : Byte) (s : State) :
    loadSlotImm .indHl v s =
      if (s.get16 .hl).toNat < s.memSize then
        .next ({ s with mem := s.mem.write (s.get16 .hl).toNat v }.setRem 1)
      else .fault (.memOutOfRange (s.get16 .hl)) := by
  unfold loadSlotImm
  by_cases h : (s.get16 .hl).toNat < s.memSize
  · simp only [State.set8, State.memWrite_of_lt s _ v h, if_pos h]
    rfl
  · simp only [State.set8, State.memWrite_of_ge s _ v h, if_neg h]
    rfl

end Sys2Proof.Machine
end

