-- ==== Sys2Proof/Laws/Families.lean ====
section
/-! SUPPORT. The instructions by family: a case split over the fourteen families in place of the 129 constructors, and what
`exec` is on each. -/

namespace Sys2Proof.Machine

/-- To prove something of every instruction, prove it family by family. -/
theorem instr_by_family {P : Instr → Prop} (nop : P .nop) (halt : P .halt) (ldPairImm : ∀ p v, P (ldPairImmOf p v))
    (ldSpAlias : ∀ v, P (.ldSpD16Alias v)) (storeA : ∀ p, P (storeAOf p)) (loadA : ∀ p, P (loadAOf p))
    (incPair : ∀ p, P (incPairOf p)) (decPair : ∀ p, P (decPairOf p)) (addHl : ∀ p, P (addHlOf p))
    (inc8 : ∀ k, P (inc8Of k)) (dec8 : ∀ k, P (dec8Of k)) (ldImm8 : ∀ k v, P (ldImm8Of k v))
    (move8 : ∀ dst src, P (move8Of dst src)) (unimpl : ∀ i, i.family = .unimplemented → P i) (i : Instr) : P i := by
  cases i
  case nop => exact nop
  case halt => exact halt
  case ldSpD16Alias v => exact ldSpAlias v
  case ldBcD16 v => exact ldPairImm .bc v
  case ldDeD16 v => exact ldPairImm .de v
  case ldHlD16 v => exact ldPairImm .hl v
  case ldSpD16 v => exact ldPairImm .sp v
  case ldIndBcA => exact storeA .bc
  case ldIndDeA => exact storeA .de
  case ldAIndBc => exact loadA .bc
  case ldAIndDe => exact loadA .de
  case incBc => exact incPair .bc
  case incDe => exact incPair .de
  case incHl => exact incPair .hl
  case incSp => exact incPair .sp
  case decBc => exact decPair .bc
  case decDe => exact decPair .de
  case decHl => exact decPair .hl
  case decSp => exact decPair .sp
  case addHlBc => exact addHl .bc
  case addHlDe => exact addHl .de
  case addHlHl => exact addHl .hl
  case addHlSp => exact addHl .sp
  case incIndHl => exact inc8 .indHl
  case decIndHl => exact dec8 .indHl
  case ldIndHlD8 v => exact ldImm8 .indHl v
  case incB => exact inc8 (.reg .b)
  case incC => exact inc8 (.reg .c)
  case incD => exact inc8 (.reg .d)
  case incE => exact inc8 (.reg .e)
  case incH => exact inc8 (.reg .h)
  case incL => exact inc8 (.reg .l)
  case incA => exact inc8 (.reg .a)
  case decB => exact dec8 (.reg .b)
  case decC => exact dec8 (.reg .c)
  case decD => exact dec8 (.reg .d)
  case decE => exact dec8 (.reg .e)
  case decH => exact dec8 (.reg .h)
  case decL => exact dec8 (.reg .l)
  case decA => exact dec8 (.reg .a)
  case ldBD8 v => exact ldImm8 (.reg .b) v
  case ldCD8 v => exact ldImm8 (.reg .c) v
  case ldDD8 v => exact ldImm8 (.reg .d) v
  case ldED8 v => exact ldImm8 (.reg .e) v
  case ldHD8 v => exact ldImm8 (.reg .h) v
  case ldLD8 v => exact ldImm8 (.reg .l) v
  case ldAD8 v => exact ldImm8 (.reg .a) v
  case ldBB => exact move8 .b .b
  case ldBC => exact move8 .b .c
  case ldBD => exact move8 .b .d
  case ldBE => exact move8 .b .e
  case ldBH => exact move8 .b .h
  case ldBL => exact move8 .b .l
  case ldBA => exact move8 .b .a
  case ldCB => exact move8 .c .b
  case ldCC => exact move8 .c .c
  case ldCD => exact move8 .c .d
  case ldCE => exact move8 .c .e
  case ldCH => exact move8 .c .h
  case ldCL => exact move8 .c .l
  case ldCA => exact move8 .c .a
  case ldDB => exact move8 .d .b
  case ldDC => exact move8 .d .c
  case ldDD => exact move8 .d .d
  case ldDE => exact move8 .d .e
  case ldDH => exact move8 .d .h
  case ldDL => exact move8 .d .l
  case ldDA => exact move8 .d .a
  case ldEB => exact move8 .e .b
  case ldEC => exact move8 .e .c
  case ldED => exact move8 .e .d
  case ldEE => exact move8 .e .e
  case ldEH => exact move8 .e .h
  case ldEL => exact move8 .e .l
  case ldEA => exact move8 .e .a
  case ldHB => exact move8 .h .b
  case ldHC => exact move8 .h .c
  case ldHD => exact move8 .h .d
  case ldHE => exact move8 .h .e
  case ldHH => exact move8 .h .h
  case ldHL => exact move8 .h .l
  case ldHA => exact move8 .h .a
  case ldLB => exact move8 .l .b
  case ldLC => exact move8 .l .c
  case ldLD => exact move8 .l .d
  case ldLE => exact move8 .l .e
  case ldLH => exact move8 .l .h
  case ldLL => exact move8 .l .l
  case ldLA => exact move8 .l .a
  case ldAB => exact move8 .a .b
  case ldAC => exact move8 .a .c
  case ldAD => exact move8 .a .d
  case ldAE => exact move8 .a .e
  case ldAH => exact move8 .a .h
  case ldAL => exact move8 .a .l
  case ldAA => exact move8 .a .a
  all_goals exact unimpl _ rfl

@[simp] theorem exec_nop (s : State) : exec .nop s = .next (s.setRem 0) := rfl

@[simp] theorem exec_halt (s : State) : exec .halt s = .next ((s.setHalted true).setRem 0) := rfl

@[simp] theorem exec_ldPairImmOf (p : Pair) (v : Word) (s : State) : exec (ldPairImmOf p v) s = loadPairImm p v s := by
  cases p <;> rfl

@[simp] theorem exec_ldSpAlias (v : Word) (s : State) : exec (.ldSpD16Alias v) s = loadPairImm .sp v s := rfl

@[simp] theorem exec_storeAOf (p : IndPair) (s : State) : exec (storeAOf p) s = storeAThrough p s := by cases p <;> rfl

@[simp] theorem exec_loadAOf (p : IndPair) (s : State) : exec (loadAOf p) s = loadAThrough p s := by cases p <;> rfl

@[simp] theorem exec_incPairOf (p : Pair) (s : State) : exec (incPairOf p) s = incPair p s := by cases p <;> rfl

@[simp] theorem exec_decPairOf (p : Pair) (s : State) : exec (decPairOf p) s = decPair p s := by cases p <;> rfl

@[simp] theorem exec_addHlOf (p : Pair) (s : State) : exec (addHlOf p) s = addHl p s := by cases p <;> rfl

@[simp] theorem exec_inc8Of (k : Slot) (s : State) : exec (inc8Of k) s = incSlot k s := by
  rcases k with r | _ <;> [cases r <;> rfl; rfl]

@[simp] theorem exec_dec8Of (k : Slot) (s : State) : exec (dec8Of k) s = decSlot k s := by
  rcases k with r | _ <;> [cases r <;> rfl; rfl]

@[simp] theorem exec_ldImm8Of (k : Slot) (v : Byte) (s : State) : exec (ldImm8Of k v) s = loadSlotImm k v s := by
  rcases k with r | _ <;> [cases r <;> rfl; rfl]

@[simp] theorem exec_move8Of (dst src : Reg8) (s : State) : exec (move8Of dst src) s = moveReg dst src s := by
  cases dst <;> cases src <;> rfl

theorem exec_of_unimplemented (i : Instr) (s : State) (h : i.family = .unimplemented) :
    exec i s = unimplemented (opcodeByte i) s := by
  cases i <;> first | rfl | cases h

end Sys2Proof.Machine
end

