-- ==== Sys2Proof/Laws/PerInstr.lean ====
section
/-! SUPPORT. One lemma per constructor of Instr, for the families of LAWS.json. -/

namespace Sys2Proof.Laws.Encoding

/-- An instruction's encoding has the length of its family, 1, 2 or 3 bytes (30_encoding.md R80), and its first byte selects
a form of that length. -/
def Statement (i : Instr) : Prop :=
  (encode i).length = i.family.length ∧ (i.wf = true → (opcodeForm (opcodeByte i)).length = i.family.length)

theorem nop : Statement (.nop) := ⟨rfl, fun _ => rfl⟩

theorem ldBcD16 (d16 : Word) : Statement (.ldBcD16 d16) := ⟨rfl, fun _ => rfl⟩

theorem ldIndBcA : Statement (.ldIndBcA) := ⟨rfl, fun _ => rfl⟩

theorem incBc : Statement (.incBc) := ⟨rfl, fun _ => rfl⟩

theorem incB : Statement (.incB) := ⟨rfl, fun _ => rfl⟩

theorem decB : Statement (.decB) := ⟨rfl, fun _ => rfl⟩

theorem ldBD8 (d8 : Byte) : Statement (.ldBD8 d8) := ⟨rfl, fun _ => rfl⟩

theorem unimpl07 : Statement (.unimpl07) := ⟨rfl, fun _ => rfl⟩

theorem ldSpD16Alias (d16 : Word) : Statement (.ldSpD16Alias d16) := ⟨rfl, fun _ => rfl⟩

theorem addHlBc : Statement (.addHlBc) := ⟨rfl, fun _ => rfl⟩

theorem ldAIndBc : Statement (.ldAIndBc) := ⟨rfl, fun _ => rfl⟩

theorem decBc : Statement (.decBc) := ⟨rfl, fun _ => rfl⟩

theorem incC : Statement (.incC) := ⟨rfl, fun _ => rfl⟩

theorem decC : Statement (.decC) := ⟨rfl, fun _ => rfl⟩

theorem ldCD8 (d8 : Byte) : Statement (.ldCD8 d8) := ⟨rfl, fun _ => rfl⟩

theorem unimpl0F : Statement (.unimpl0F) := ⟨rfl, fun _ => rfl⟩

theorem unimpl10 : Statement (.unimpl10) := ⟨rfl, fun _ => rfl⟩

theorem ldDeD16 (d16 : Word) : Statement (.ldDeD16 d16) := ⟨rfl, fun _ => rfl⟩

theorem ldIndDeA : Statement (.ldIndDeA) := ⟨rfl, fun _ => rfl⟩

theorem incDe : Statement (.incDe) := ⟨rfl, fun _ => rfl⟩

theorem incD : Statement (.incD) := ⟨rfl, fun _ => rfl⟩

theorem decD : Statement (.decD) := ⟨rfl, fun _ => rfl⟩

theorem ldDD8 (d8 : Byte) : Statement (.ldDD8 d8) := ⟨rfl, fun _ => rfl⟩

theorem unimpl17 : Statement (.unimpl17) := ⟨rfl, fun _ => rfl⟩

theorem unimpl18 : Statement (.unimpl18) := ⟨rfl, fun _ => rfl⟩

theorem addHlDe : Statement (.addHlDe) := ⟨rfl, fun _ => rfl⟩

theorem ldAIndDe : Statement (.ldAIndDe) := ⟨rfl, fun _ => rfl⟩

theorem decDe : Statement (.decDe) := ⟨rfl, fun _ => rfl⟩

theorem incE : Statement (.incE) := ⟨rfl, fun _ => rfl⟩

theorem decE : Statement (.decE) := ⟨rfl, fun _ => rfl⟩

theorem ldED8 (d8 : Byte) : Statement (.ldED8 d8) := ⟨rfl, fun _ => rfl⟩

theorem unimpl1F : Statement (.unimpl1F) := ⟨rfl, fun _ => rfl⟩

theorem unimpl20 : Statement (.unimpl20) := ⟨rfl, fun _ => rfl⟩

theorem ldHlD16 (d16 : Word) : Statement (.ldHlD16 d16) := ⟨rfl, fun _ => rfl⟩

theorem unimpl22 : Statement (.unimpl22) := ⟨rfl, fun _ => rfl⟩

theorem incHl : Statement (.incHl) := ⟨rfl, fun _ => rfl⟩

theorem incH : Statement (.incH) := ⟨rfl, fun _ => rfl⟩

theorem decH : Statement (.decH) := ⟨rfl, fun _ => rfl⟩

theorem ldHD8 (d8 : Byte) : Statement (.ldHD8 d8) := ⟨rfl, fun _ => rfl⟩

theorem unimpl27 : Statement (.unimpl27) := ⟨rfl, fun _ => rfl⟩

theorem unimpl28 : Statement (.unimpl28) := ⟨rfl, fun _ => rfl⟩

theorem addHlHl : Statement (.addHlHl) := ⟨rfl, fun _ => rfl⟩

theorem unimpl2A : Statement (.unimpl2A) := ⟨rfl, fun _ => rfl⟩

theorem decHl : Statement (.decHl) := ⟨rfl, fun _ => rfl⟩

theorem incL : Statement (.incL) := ⟨rfl, fun _ => rfl⟩

theorem decL : Statement (.decL) := ⟨rfl, fun _ => rfl⟩

theorem ldLD8 (d8 : Byte) : Statement (.ldLD8 d8) := ⟨rfl, fun _ => rfl⟩

theorem unimpl2F : Statement (.unimpl2F) := ⟨rfl, fun _ => rfl⟩

theorem unimpl30 : Statement (.unimpl30) := ⟨rfl, fun _ => rfl⟩

theorem ldSpD16 (d16 : Word) : Statement (.ldSpD16 d16) := ⟨rfl, fun _ => rfl⟩

theorem unimpl32 : Statement (.unimpl32) := ⟨rfl, fun _ => rfl⟩

theorem incSp : Statement (.incSp) := ⟨rfl, fun _ => rfl⟩

theorem incIndHl : Statement (.incIndHl) := ⟨rfl, fun _ => rfl⟩

theorem decIndHl : Statement (.decIndHl) := ⟨rfl, fun _ => rfl⟩

theorem ldIndHlD8 (d8 : Byte) : Statement (.ldIndHlD8 d8) := ⟨rfl, fun _ => rfl⟩

theorem unimpl37 : Statement (.unimpl37) := ⟨rfl, fun _ => rfl⟩

theorem unimpl38 : Statement (.unimpl38) := ⟨rfl, fun _ => rfl⟩

theorem addHlSp : Statement (.addHlSp) := ⟨rfl, fun _ => rfl⟩

theorem unimpl3A : Statement (.unimpl3A) := ⟨rfl, fun _ => rfl⟩

theorem decSp : Statement (.decSp) := ⟨rfl, fun _ => rfl⟩

theorem incA : Statement (.incA) := ⟨rfl, fun _ => rfl⟩

theorem decA : Statement (.decA) := ⟨rfl, fun _ => rfl⟩

theorem ldAD8 (d8 : Byte) : Statement (.ldAD8 d8) := ⟨rfl, fun _ => rfl⟩

theorem unimpl3F : Statement (.unimpl3F) := ⟨rfl, fun _ => rfl⟩

theorem ldBB : Statement (.ldBB) := ⟨rfl, fun _ => rfl⟩

theorem ldBC : Statement (.ldBC) := ⟨rfl, fun _ => rfl⟩

theorem ldBD : Statement (.ldBD) := ⟨rfl, fun _ => rfl⟩

theorem ldBE : Statement (.ldBE) := ⟨rfl, fun _ => rfl⟩

theorem ldBH : Statement (.ldBH) := ⟨rfl, fun _ => rfl⟩

theorem ldBL : Statement (.ldBL) := ⟨rfl, fun _ => rfl⟩

theorem unimpl46 : Statement (.unimpl46) := ⟨rfl, fun _ => rfl⟩

theorem ldBA : Statement (.ldBA) := ⟨rfl, fun _ => rfl⟩

theorem ldCB : Statement (.ldCB) := ⟨rfl, fun _ => rfl⟩

theorem ldCC : Statement (.ldCC) := ⟨rfl, fun _ => rfl⟩

theorem ldCD : Statement (.ldCD) := ⟨rfl, fun _ => rfl⟩

theorem ldCE : Statement (.ldCE) := ⟨rfl, fun _ => rfl⟩

theorem ldCH : Statement (.ldCH) := ⟨rfl, fun _ => rfl⟩

theorem ldCL : Statement (.ldCL) := ⟨rfl, fun _ => rfl⟩

theorem unimpl4E : Statement (.unimpl4E) := ⟨rfl, fun _ => rfl⟩

theorem ldCA : Statement (.ldCA) := ⟨rfl, fun _ => rfl⟩

theorem ldDB : Statement (.ldDB) := ⟨rfl, fun _ => rfl⟩

theorem ldDC : Statement (.ldDC) := ⟨rfl, fun _ => rfl⟩

theorem ldDD : Statement (.ldDD) := ⟨rfl, fun _ => rfl⟩

theorem ldDE : Statement (.ldDE) := ⟨rfl, fun _ => rfl⟩

theorem ldDH : Statement (.ldDH) := ⟨rfl, fun _ => rfl⟩

theorem ldDL : Statement (.ldDL) := ⟨rfl, fun _ => rfl⟩

theorem unimpl56 : Statement (.unimpl56) := ⟨rfl, fun _ => rfl⟩

theorem ldDA : Statement (.ldDA) := ⟨rfl, fun _ => rfl⟩

theorem ldEB : Statement (.ldEB) := ⟨rfl, fun _ => rfl⟩

theorem ldEC : Statement (.ldEC) := ⟨rfl, fun _ => rfl⟩

theorem ldED : Statement (.ldED) := ⟨rfl, fun _ => rfl⟩

theorem ldEE : Statement (.ldEE) := ⟨rfl, fun _ => rfl⟩

theorem ldEH : Statement (.ldEH) := ⟨rfl, fun _ => rfl⟩

theorem ldEL : Statement (.ldEL) := ⟨rfl, fun _ => rfl⟩

theorem unimpl5E : Statement (.unimpl5E) := ⟨rfl, fun _ => rfl⟩

theorem ldEA : Statement (.ldEA) := ⟨rfl, fun _ => rfl⟩

theorem ldHB : Statement (.ldHB) := ⟨rfl, fun _ => rfl⟩

theorem ldHC : Statement (.ldHC) := ⟨rfl, fun _ => rfl⟩

theorem ldHD : Statement (.ldHD) := ⟨rfl, fun _ => rfl⟩

theorem ldHE : Statement (.ldHE) := ⟨rfl, fun _ => rfl⟩

theorem ldHH : Statement (.ldHH) := ⟨rfl, fun _ => rfl⟩

theorem ldHL : Statement (.ldHL) := ⟨rfl, fun _ => rfl⟩

theorem unimpl66 : Statement (.unimpl66) := ⟨rfl, fun _ => rfl⟩

theorem ldHA : Statement (.ldHA) := ⟨rfl, fun _ => rfl⟩

theorem ldLB : Statement (.ldLB) := ⟨rfl, fun _ => rfl⟩

theorem ldLC : Statement (.ldLC) := ⟨rfl, fun _ => rfl⟩

theorem ldLD : Statement (.ldLD) := ⟨rfl, fun _ => rfl⟩

theorem ldLE : Statement (.ldLE) := ⟨rfl, fun _ => rfl⟩

theorem ldLH : Statement (.ldLH) := ⟨rfl, fun _ => rfl⟩

theorem ldLL : Statement (.ldLL) := ⟨rfl, fun _ => rfl⟩

theorem unimpl6E : Statement (.unimpl6E) := ⟨rfl, fun _ => rfl⟩

theorem ldLA : Statement (.ldLA) := ⟨rfl, fun _ => rfl⟩

theorem unimpl70 : Statement (.unimpl70) := ⟨rfl, fun _ => rfl⟩

theorem unimpl71 : Statement (.unimpl71) := ⟨rfl, fun _ => rfl⟩

theorem unimpl72 : Statement (.unimpl72) := ⟨rfl, fun _ => rfl⟩

theorem unimpl73 : Statement (.unimpl73) := ⟨rfl, fun _ => rfl⟩

theorem unimpl74 : Statement (.unimpl74) := ⟨rfl, fun _ => rfl⟩

theorem unimpl75 : Statement (.unimpl75) := ⟨rfl, fun _ => rfl⟩

theorem halt : Statement (.halt) := ⟨rfl, fun _ => rfl⟩

theorem unimpl77 : Statement (.unimpl77) := ⟨rfl, fun _ => rfl⟩

theorem ldAB : Statement (.ldAB) := ⟨rfl, fun _ => rfl⟩

theorem ldAC : Statement (.ldAC) := ⟨rfl, fun _ => rfl⟩

theorem ldAD : Statement (.ldAD) := ⟨rfl, fun _ => rfl⟩

theorem ldAE : Statement (.ldAE) := ⟨rfl, fun _ => rfl⟩

theorem ldAH : Statement (.ldAH) := ⟨rfl, fun _ => rfl⟩

theorem ldAL : Statement (.ldAL) := ⟨rfl, fun _ => rfl⟩

theorem unimpl7E : Statement (.unimpl7E) := ⟨rfl, fun _ => rfl⟩

theorem ldAA : Statement (.ldAA) := ⟨rfl, fun _ => rfl⟩

theorem unimpl80ToFF (b : Byte) : Statement (.unimpl80ToFF b) := by
  refine ⟨rfl, fun h => ?_⟩
  revert h; revert b; decide

end Sys2Proof.Laws.Encoding
end

