-- ==== Sys2Proof/Laws/Step.lean ====
section
/-! SUPPORT. What a step can do, said once: the fetch of an instruction's bytes, an instruction's execution, and one turn of the
run loop, each by what must hold when it answers. -/

namespace Sys2Proof.Machine

/-- When the fetch answers an instruction, it read n bytes (1 to 3) that all lie inside the buffer, and moved PC past them. -/
theorem State.fetchInstr_inv (s t : State) (i : Instr) (h : s.fetchInstr = .ok (i, t)) :
    ∃ n, 1 ≤ n ∧ n ≤ 3 ∧ t = s.setPc (s.pc + BitVec.ofNat 16 n) ∧
      ∀ k < n, (s.pc + BitVec.ofNat 16 k).toNat < s.memSize := by
  unfold State.fetchInstr at h
  by_cases h0 : s.pc.toNat < s.memSize
  swap
  · rw [State.fetch8_of_ge s h0] at h; cases h
  simp only [State.fetch8_of_lt s h0, bind, Except.bind] at h
  cases hf : opcodeForm (s.mem.read s.pc.toNat) <;> rw [hf] at h
  · cases h; exact ⟨1, by omega, by omega, rfl, by intro k hk; interval_cases k; simpa using h0⟩
  · by_cases h1 : (s.pc + 1).toNat < s.memSize
    swap
    · simp only [State.fetch8_of_ge (s.setPc (s.pc+1)) h1] at h; cases h
    simp only [State.fetch8_of_lt (s.setPc (s.pc+1)) h1] at h; cases h
    refine ⟨2, by omega, by omega, ?_, ?_⟩
    · simp [State.setPc]; rw [BitVec.add_assoc]; rfl
    · intro k hk; interval_cases k
      · simpa using h0
      · exact h1
  · by_cases h1 : (s.pc + 1).toNat < s.memSize
    swap
    · simp only [State.fetch8_of_ge (s.setPc (s.pc+1)) h1] at h; cases h
    simp only [State.fetch8_of_lt (s.setPc (s.pc+1)) h1] at h
    by_cases h2 : (s.pc + 1 + 1).toNat < s.memSize
    swap
    · simp only [State.fetch8_of_ge ((s.setPc (s.pc+1)).setPc ((s.setPc (s.pc+1)).pc + 1)) h2] at h; cases h
    simp only [State.fetch8_of_lt ((s.setPc (s.pc+1)).setPc ((s.setPc (s.pc+1)).pc + 1)) h2] at h; cases h
    refine ⟨3, by omega, by omega, ?_, ?_⟩
    · simp [State.setPc]; rw [BitVec.add_assoc, BitVec.add_assoc]; rfl
    · intro k hk; interval_cases k
      · simpa using h0
      · exact h1
      · rw [BitVec.add_assoc] at h2; exact h2

/-- PC after a fetch of n bytes that lie inside the buffer is at most the capacity, and has not wrapped when the capacity is
below 65536. -/
theorem pc_after_fetch (s : State) (n : Nat) (h1 : 1 ≤ n) (h3 : n ≤ 3) (hm : s.memSize ≤ 65536)
    (h : ∀ k < n, (s.pc + BitVec.ofNat 16 k).toNat < s.memSize) :
    (s.pc + BitVec.ofNat 16 n).toNat ≤ s.memSize ∧
      (s.memSize < 65536 → (s.pc + BitVec.ofNat 16 n).toNat = s.pc.toNat + n) := by
  have a0 := h 0 (by omega)
  simp at a0 h ⊢
  interval_cases n
  · omega
  · have a1 := h 1 (by omega); omega
  · have a1 := h 1 (by omega); have a2 := h 2 (by omega); omega

/-- When an instruction answers a next state: PC and the capacity are kept, memory is kept or has one byte inside the buffer
written, `rem` is at most 2 or kept, and a core halted by it has no latency left. -/
theorem exec_next_inv (i : Instr) (s t : State) (h : exec i s = .next t) :
    t.pc = s.pc ∧ t.memSize = s.memSize ∧
      (t.mem = s.mem ∨ ∃ (a : Nat) (v : Byte), a < s.memSize ∧ t.mem = s.mem.write a v) ∧
      (t.rem ≤ 2 ∨ t.rem = s.rem) ∧ (t.halted = true → s.halted = true ∨ t.rem = 0) := by
  revert h
  refine instr_by_family (P := fun i => exec i s = .next t → _) ?_ ?_ ?_ ?_ ?_ ?_ ?_ ?_ ?_ ?_ ?_ ?_ ?_ ?_ i
  · rintro ⟨⟩; simp
  · rintro ⟨⟩; simp
  · rintro p v h; rw [exec_ldPairImmOf, loadPairImm_eq] at h; cases h; simp +contextual
  · rintro v h; rw [exec_ldSpAlias, loadPairImm_eq] at h; cases h; simp +contextual
  · rintro p h; rw [exec_storeAOf, storeAThrough_eq] at h; split at h <;> cases h; simp +contextual
    exact .inr ⟨_, by assumption, _, rfl⟩
  · rintro p h; rw [exec_loadAOf, loadAThrough_eq] at h; split at h <;> cases h; simp +contextual
  · rintro p h; rw [exec_incPairOf, incPair_eq] at h; cases h; simp +contextual
  · rintro p h; rw [exec_decPairOf, decPair_eq] at h; cases h; simp +contextual
  · rintro p h; rw [exec_addHlOf, addHl_eq] at h; cases h; simp +contextual
  · rintro (r | _) h
    · rw [exec_inc8Of, incSlot_reg_eq] at h; cases h; simp +contextual
    · rw [exec_inc8Of, incSlot_indHl_eq] at h; split at h <;> cases h; simp +contextual
      exact .inr ⟨_, by assumption, _, rfl⟩
  · rintro (r | _) h
    · rw [exec_dec8Of, decSlot_reg_eq] at h; cases h; simp +contextual
    · rw [exec_dec8Of, decSlot_indHl_eq] at h; split at h <;> cases h; simp +contextual
      exact .inr ⟨_, by assumption, _, rfl⟩
  · rintro (r | _) v h
    · rw [exec_ldImm8Of, loadSlotImm_reg_eq] at h; cases h; simp +contextual
    · rw [exec_ldImm8Of, loadSlotImm_indHl_eq] at h; split at h <;> cases h; simp +contextual
      exact .inr ⟨_, by assumption, _, rfl⟩
  · rintro dst src h; rw [exec_move8Of, moveReg_eq] at h; cases h; simp +contextual
  · rintro i hi h; rw [exec_of_unimplemented i s hi, unimplemented_eq] at h; cases h; simp +contextual

/-- When a turn of the run loop answers a next state, the run had ended and rests, or one unit of latency was burned, or an
instruction was fetched and executed. -/
theorem step_next_inv (s t : State) (h : step s = .next t) :
    (s.ended = true ∧ t = s) ∨ (s.ended = false ∧ 0 < s.rem ∧ t = s.setRem (s.rem - 1)) ∨
      (s.ended = false ∧ s.rem = 0 ∧ ∃ i n, 1 ≤ n ∧ n ≤ 3 ∧ (∀ k < n, (s.pc + BitVec.ofNat 16 k).toNat < s.memSize) ∧
        exec i (s.setPc (s.pc + BitVec.ofNat 16 n)) = .next t) := by
  unfold step runLoopStep at h
  split at h
  · next e => cases h; exact .inl ⟨e, rfl⟩
  · next e =>
    simp at e
    unfold tick at h; split at h
    · next r => cases h; exact .inr (.inl ⟨e, r, rfl⟩)
    · next r =>
      split at h
      · next i u hu =>
        obtain ⟨n, h1, h3, rfl, hk⟩ := State.fetchInstr_inv _ _ _ hu
        exact .inr (.inr ⟨e, by omega, i, n, h1, h3, hk, h⟩)
      · cases h

/-- m + n turns are m turns and then n. -/
theorem steps_add (m n : Nat) (s : State) :
    steps (m + n) s =
      match steps m s with
      | .next t => steps n t
      | .fault f => .fault f
      | .refused r => .refused r := by
  induction m generalizing s with
  | zero => simp [steps]
  | succ m ih =>
    rw [Nat.add_right_comm]; simp only [steps]
    cases step s <;> simp [ih]

end Sys2Proof.Machine
end

