-- ==== Sys2Proof/Tests/Slice0.lean ====
section
/-! SUPPORT. The model's own tests, by hand from the spec: the well-formedness check, decoding, the vectors of
95_test_vectors.md (named V<n> as there), how the host places an instruction, and for each statement with hypotheses a witness
that meets them. -/

namespace Sys2Proof.Tests

open Sys2Proof.Machine

/-- A machine of `n` bytes just constructed, with bytes loaded at 0. -/
def boot (n : Nat) (bytes : List Byte) : State := (State.construct n Config.resetInit).placeBytes bytes 0

/-- The instruction at the head of some bytes. -/
def decoded (bytes : List Byte) : Option Instr := (decode bytes).toOption.map Prod.fst

/-- The next state an outcome holds, if it holds one. -/
def stateOf : Host.Outcome State Fault Refusal → Option State
  | .next s => some s
  | .fault _ => none
  | .refused _ => none

/-- The fault an outcome holds, if it holds one. -/
def faultOf : Host.Outcome State Fault Refusal → Option Fault
  | .next _ => none
  | .fault f => some f
  | .refused _ => none

/-- The outcome is a next state with a property. -/
def nextIs (o : Host.Outcome State Fault Refusal) (p : State → Bool) : Bool := ((stateOf o).map p).getD false

/-- The seven cells in slot order, A last. -/
def cells (s : State) : List Byte := [s.b, s.c, s.d, s.e, s.h, s.l, s.a]

/-- The four flags, in the order Z N H C. -/
def flags (s : State) : List Bool := [s.fZ, s.fN, s.fH, s.fC]

/-- A state with the seven cells all different and all flags true. -/
def patterned (n : Nat) (bytes : List Byte) : State :=
  { boot n bytes with
    b := 0x10, c := 0x21, d := 0x32, e := 0x43, h := 0x54, l := 0x65, a := 0x76, sp := 0x8798
    fZ := true, fN := true, fH := true, fC := true }

/-! ## Well-formedness: the one check refuses a byte below 0x80 in the row of 0x80 to 0xFF -/

theorem test_wf_refuses_byte_7F : (Instr.unimpl80ToFF 0x7F).wf = false := by decide

theorem test_wf_refuses_byte_00 : (Instr.unimpl80ToFF 0x00).wf = false := by decide

theorem test_wf_accepts_byte_80_and_FF : (Instr.unimpl80ToFF 0x80).wf = true ∧ (Instr.unimpl80ToFF 0xFF).wf = true := by
  decide

/-! ## Decoding: every row, its word written by the format of 30_encoding.md R82 with the field values of R83 -/

/-- Bytes 00 to 0F (30_encoding.md R90). -/
theorem test_decode_row_0 :
    [[0b00000000], [0b00_00_0001, 0x34, 0x12], [0b000_0_0010], [0b00_00_0011], [0b00_000_100], [0b00_000_101],
      [0b00_000_110, 0x9A], [0b00000111], [0b00001000, 0x34, 0x12], [0b00_00_1001], [0b000_0_1010], [0b00_00_1011],
      [0b00_001_100], [0b00_001_101], [0b00_001_110, 0x9A], [0b00001111]].map decoded =
    [Instr.nop, Instr.ldBcD16 0x1234, Instr.ldIndBcA, Instr.incBc, Instr.incB, Instr.decB, Instr.ldBD8 0x9A,
      Instr.unimpl07, Instr.ldSpD16Alias 0x1234, Instr.addHlBc, Instr.ldAIndBc, Instr.decBc, Instr.incC, Instr.decC,
      Instr.ldCD8 0x9A, Instr.unimpl0F].map some := by decide

/-- Bytes 10 to 1F (30_encoding.md R90). -/
theorem test_decode_row_1 :
    [[0b00010000], [0b00_01_0001, 0x34, 0x12], [0b000_1_0010], [0b00_01_0011], [0b00_010_100], [0b00_010_101],
      [0b00_010_110, 0x9A], [0b00010111], [0b00011000], [0b00_01_1001], [0b000_1_1010], [0b00_01_1011], [0b00_011_100],
      [0b00_011_101], [0b00_011_110, 0x9A], [0b00011111]].map decoded =
    [Instr.unimpl10, Instr.ldDeD16 0x1234, Instr.ldIndDeA, Instr.incDe, Instr.incD, Instr.decD, Instr.ldDD8 0x9A,
      Instr.unimpl17, Instr.unimpl18, Instr.addHlDe, Instr.ldAIndDe, Instr.decDe, Instr.incE, Instr.decE, Instr.ldED8 0x9A,
      Instr.unimpl1F].map some := by decide

/-- Bytes 20 to 2F (30_encoding.md R90). -/
theorem test_decode_row_2 :
    [[0b00100000], [0b00_10_0001, 0x34, 0x12], [0b00100010], [0b00_10_0011], [0b00_100_100], [0b00_100_101],
      [0b00_100_110, 0x9A], [0b00100111], [0b00101000], [0b00_10_1001], [0b00101010], [0b00_10_1011], [0b00_101_100],
      [0b00_101_101], [0b00_101_110, 0x9A], [0b00101111]].map decoded =
    [Instr.unimpl20, Instr.ldHlD16 0x1234, Instr.unimpl22, Instr.incHl, Instr.incH, Instr.decH, Instr.ldHD8 0x9A,
      Instr.unimpl27, Instr.unimpl28, Instr.addHlHl, Instr.unimpl2A, Instr.decHl, Instr.incL, Instr.decL, Instr.ldLD8 0x9A,
      Instr.unimpl2F].map some := by decide

/-- Bytes 30 to 3F (30_encoding.md R90). -/
theorem test_decode_row_3 :
    [[0b00110000], [0b00_11_0001, 0x34, 0x12], [0b00110010], [0b00_11_0011], [0b00_110_100], [0b00_110_101],
      [0b00_110_110, 0x9A], [0b00110111], [0b00111000], [0b00_11_1001], [0b00111010], [0b00_11_1011], [0b00_111_100],
      [0b00_111_101], [0b00_111_110, 0x9A], [0b00111111]].map decoded =
    [Instr.unimpl30, Instr.ldSpD16 0x1234, Instr.unimpl32, Instr.incSp, Instr.incIndHl, Instr.decIndHl,
      Instr.ldIndHlD8 0x9A, Instr.unimpl37, Instr.unimpl38, Instr.addHlSp, Instr.unimpl3A, Instr.decSp, Instr.incA,
      Instr.decA, Instr.ldAD8 0x9A, Instr.unimpl3F].map some := by decide

/-- Bytes 40 to 4F (30_encoding.md R90). -/
theorem test_decode_row_4 :
    [[0b01_000_000], [0b01_000_001], [0b01_000_010], [0b01_000_011], [0b01_000_100], [0b01_000_101], [0b01000110],
      [0b01_000_111], [0b01_001_000], [0b01_001_001], [0b01_001_010], [0b01_001_011], [0b01_001_100], [0b01_001_101],
      [0b01001110], [0b01_001_111]].map decoded =
    [Instr.ldBB, Instr.ldBC, Instr.ldBD, Instr.ldBE, Instr.ldBH, Instr.ldBL, Instr.unimpl46, Instr.ldBA, Instr.ldCB,
      Instr.ldCC, Instr.ldCD, Instr.ldCE, Instr.ldCH, Instr.ldCL, Instr.unimpl4E, Instr.ldCA].map some := by decide

/-- Bytes 50 to 5F (30_encoding.md R90). -/
theorem test_decode_row_5 :
    [[0b01_010_000], [0b01_010_001], [0b01_010_010], [0b01_010_011], [0b01_010_100], [0b01_010_101], [0b01010110],
      [0b01_010_111], [0b01_011_000], [0b01_011_001], [0b01_011_010], [0b01_011_011], [0b01_011_100], [0b01_011_101],
      [0b01011110], [0b01_011_111]].map decoded =
    [Instr.ldDB, Instr.ldDC, Instr.ldDD, Instr.ldDE, Instr.ldDH, Instr.ldDL, Instr.unimpl56, Instr.ldDA, Instr.ldEB,
      Instr.ldEC, Instr.ldED, Instr.ldEE, Instr.ldEH, Instr.ldEL, Instr.unimpl5E, Instr.ldEA].map some := by decide

/-- Bytes 60 to 6F (30_encoding.md R90). -/
theorem test_decode_row_6 :
    [[0b01_100_000], [0b01_100_001], [0b01_100_010], [0b01_100_011], [0b01_100_100], [0b01_100_101], [0b01100110],
      [0b01_100_111], [0b01_101_000], [0b01_101_001], [0b01_101_010], [0b01_101_011], [0b01_101_100], [0b01_101_101],
      [0b01101110], [0b01_101_111]].map decoded =
    [Instr.ldHB, Instr.ldHC, Instr.ldHD, Instr.ldHE, Instr.ldHH, Instr.ldHL, Instr.unimpl66, Instr.ldHA, Instr.ldLB,
      Instr.ldLC, Instr.ldLD, Instr.ldLE, Instr.ldLH, Instr.ldLL, Instr.unimpl6E, Instr.ldLA].map some := by decide

/-- Bytes 70 to 7F (30_encoding.md R90). -/
theorem test_decode_row_7 :
    [[0b01110000], [0b01110001], [0b01110010], [0b01110011], [0b01110100], [0b01110101], [0b01110110], [0b01110111],
      [0b01_111_000], [0b01_111_001], [0b01_111_010], [0b01_111_011], [0b01_111_100], [0b01_111_101], [0b01111110],
      [0b01_111_111]].map decoded =
    [Instr.unimpl70, Instr.unimpl71, Instr.unimpl72, Instr.unimpl73, Instr.unimpl74, Instr.unimpl75, Instr.halt,
      Instr.unimpl77, Instr.ldAB, Instr.ldAC, Instr.ldAD, Instr.ldAE, Instr.ldAH, Instr.ldAL, Instr.unimpl7E, Instr.ldAA].map some := by decide

/-- The row `1bbbbbbb` at its two ends (30_encoding.md R91). -/
theorem test_decode_row_80ToFF :
    [[0b10000000], [0b11111111]].map decoded = [some (.unimpl80ToFF 0x80), some (.unimpl80ToFF 0xFF)] := by decide

/-- R86's own examples: `01 06 00` is LD BC,0x0006 and `21 FF 0F` is LD HL,0x0FFF. -/
theorem test_decode_r86_examples :
    [[0x01, 0x06, 0x00], [0x21, 0xFF, 0x0F]].map decoded = [some (.ldBcD16 0x0006), some (.ldHlD16 0x0FFF)] := by decide

/-- Bytes that end too early are refused by name. -/
theorem test_decode_too_short :
    decode [] = .error .noOpcode ∧ decode [0x01] = .error .missingImmediate ∧
    decode [0x31, 0x00] = .error .missingImmediate ∧ decode [0x06] = .error .missingImmediate := by decide

/-- What follows an instruction is left over. -/
theorem test_decode_leaves_rest : decode [0x3E, 0x76, 0x01] = .ok (.ldAD8 0x76, [0x01]) := by decide

/-- The encoder on one instruction of each format. -/
theorem test_encode_formats :
    [Instr.nop, .ldDeD16 0xABCD, .ldIndDeA, .decSp, .incIndHl, .ldHD8 0x01, .ldHL, .halt, .unimpl7E, .unimpl80ToFF 0xD3].map
      encode =
    [[0x00], [0x11, 0xCD, 0xAB], [0x12], [0x3B], [0x34], [0x26, 0x01], [0x65], [0x76], [0x7E], [0xD3]] := by decide

/-- A table word: the second byte is bits 15 to 8, the third bits 23 to 16; bits the table does not give are 0. -/
theorem test_decodeTableWord :
    decodeTableWord 24 0x123401 = some (.ldBcD16 0x1234) ∧ decodeTableWord 8 0x3E = some (.ldAD8 0x00) ∧
    decodeTableWord 8 0x4D3 = some (.unimpl80ToFF 0xD3) := by decide

/-- The placed instruction is what the step runs, from reset; and after a halt, with latency left, and across the wrap of PC. -/
theorem test_withFetchWord :
    stateOf (step (State.reset.withFetchWord 8 0x3C)) =
      some { State.reset.withFetchWord 8 0x3C with a := 0x01, fH := false, pc := 0x0001 } ∧
    nextIs (step ({ boot 65536 [] with pc := 0xFFFF, rem := 2, halted := true }.withFetchWord 24 0x123411))
      (fun t => t.d == 0x12 && t.e == 0x34 && t.pc == 0x0002) = true := by decide

/-! ## Compose (00_scope.md R10; vector L1) -/

theorem test_L1_compose16 : compose16 0x80 0x01 = 0x8001 ∧ compose16 0xFF 0x00 = 0xFF00 := by decide

theorem test_hi8_lo8 : hi8 0xABCD = 0xAB ∧ lo8 0xABCD = 0xCD := by decide

/-! ## NOP and HALT (V40) -/

theorem test_V40_1_nop :
    stateOf (step (patterned 65536 [0x00])) = some { patterned 65536 [0x00] with pc := 0x0001 } := by decide

theorem test_V40_2_halt :
    stateOf (step (patterned 65536 [0x76])) = some { patterned 65536 [0x76] with pc := 0x0001, halted := true } := by decide

theorem test_V40_4_halt_at_last_address :
    nextIs (steps 3 (boot 3 [0x00, 0x00, 0x76])) (fun t => t.halted && t.pc == 0x0003 && t.rem == 0 && t.ended) = true := by
  decide

/-! ## LD rr,d16 and the alias byte (V41): the whole state after one step -/

theorem test_V41_1_ld_bc :
    stateOf (step (patterned 65536 [0x01, 0x34, 0x12])) =
      some { patterned 65536 [0x01, 0x34, 0x12] with b := 0x12, c := 0x34, pc := 0x0003, rem := 2 } := by decide

theorem test_V41_2_ld_de :
    stateOf (step (patterned 65536 [0x11, 0xCD, 0xAB])) =
      some { patterned 65536 [0x11, 0xCD, 0xAB] with d := 0xAB, e := 0xCD, pc := 0x0003, rem := 2 } := by decide

theorem test_V41_3_ld_hl :
    stateOf (step (patterned 65536 [0x21, 0x00, 0x80])) =
      some { patterned 65536 [0x21, 0x00, 0x80] with h := 0x80, l := 0x00, pc := 0x0003, rem := 2 } := by decide

theorem test_V41_4_ld_sp :
    stateOf (step (patterned 65536 [0x31, 0xFE, 0xFF])) =
      some { patterned 65536 [0x31, 0xFE, 0xFF] with sp := 0xFFFE, pc := 0x0003, rem := 2 } := by decide

theorem test_V41_5_alias_stores_nothing :
    stateOf (step (patterned 65536 [0x08, 0x00, 0xC0])) =
      some { patterned 65536 [0x08, 0x00, 0xC0] with sp := 0xC000, pc := 0x0003, rem := 2 } := by decide

/-- The bytes straddle the wrap of PC. -/
def wrapped : State := { (boot 65536 [0x12]).placeBytes [0x01, 0x34] 0xFFFE with pc := 0xFFFE }

theorem test_V41_6_fetch_wraps :
    nextIs (step wrapped) (fun t => t.b == 0x12 && t.c == 0x34 && t.pc == 0x0001) = true := by decide

theorem test_V41_7_missing_low_byte :
    faultOf (steps 3 (boot 3 [0x00, 0x00, 0x01])) = some (.memOutOfRange 0x0003) := by decide

/-! ## LD (rr),A and LD A,(rr) (V42) -/

theorem test_V42_1_store_bc :
    nextIs (step { patterned 65536 [0x02] with b := 0x01, c := 0x00, a := 0x5A })
      (fun t => t.mem.read 0x0100 == 0x5A && t.mem.read 0x0001 == 0x00 && t.pc == 0x0001 && flags t == flags (patterned 1 []))
    = true := by decide

theorem test_V42_2_store_de :
    nextIs (step { boot 65536 [0x12] with d := 0xFF, e := 0xFF, a := 0x01 }) (fun t => t.mem.read 0xFFFF == 0x01) = true := by
  decide

theorem test_V42_3_load_bc :
    nextIs (step { (boot 65536 [0x0A]).placeBytes [0x77] 0x0100 with b := 0x01, c := 0x00 })
      (fun t => t.a == 0x77 && t.rem == 1) = true := by decide

theorem test_V42_4_load_de_own_byte : nextIs (step (boot 65536 [0x1A])) (fun t => t.a == 0x1A) = true := by decide

theorem test_V42_5_store_over_itself :
    nextIs (step { boot 65536 [0x02] with a := 0x76 }) (fun t => t.mem.read 0 == 0x76 && t.pc == 0x0001) = true := by decide

theorem test_V42_6_and_7_last_address_and_beyond :
    nextIs (step { boot 16 [0x02] with c := 0x0F, a := 0x01 }) (fun t => t.mem.read 0x000F == 0x01) = true ∧
    faultOf (step { boot 16 [0x02] with c := 0x10, a := 0x01 }) = some (.memOutOfRange 0x0010) := by decide

theorem test_load_beyond :
    faultOf (step { boot 16 [0x0A] with c := 0x10 }) = some (.memOutOfRange 0x0010) ∧
    faultOf (step { boot 16 [0x1A] with e := 0x10 }) = some (.memOutOfRange 0x0010) ∧
    faultOf (step { boot 16 [0x12] with e := 0x10 }) = some (.memOutOfRange 0x0010) := by decide

/-! ## INC rr, DEC rr, ADD HL,rr (V43): flags all true before where none is to change -/

theorem test_V43_1_inc_bc :
    stateOf (step { patterned 65536 [0x03] with b := 0x00, c := 0xFF }) =
      some { patterned 65536 [0x03] with b := 0x01, c := 0x00, pc := 0x0001, rem := 1 } := by decide

theorem test_V43_2_inc_de :
    stateOf (step { boot 65536 [0x13] with d := 0xFF, e := 0xFF }) =
      some { boot 65536 [0x13] with d := 0x00, e := 0x00, pc := 0x0001, rem := 1 } := by decide

theorem test_V43_3_inc_hl :
    stateOf (step { boot 65536 [0x23] with h := 0x0F, l := 0xFF }) =
      some { boot 65536 [0x23] with h := 0x10, l := 0x00, pc := 0x0001, rem := 1 } := by decide

theorem test_V43_4_inc_sp :
    stateOf (step { patterned 65536 [0x33] with sp := 0xFFFF }) =
      some { patterned 65536 [0x33] with sp := 0x0000, pc := 0x0001, rem := 1 } := by decide

theorem test_V43_5_dec_bc :
    stateOf (step { patterned 65536 [0x0B] with b := 0x01, c := 0x00 }) =
      some { patterned 65536 [0x0B] with b := 0x00, c := 0xFF, pc := 0x0001, rem := 1 } := by decide

theorem test_V43_6_dec_de :
    stateOf (step { boot 65536 [0x1B] with d := 0x00, e := 0x00 }) =
      some { boot 65536 [0x1B] with d := 0xFF, e := 0xFF, pc := 0x0001, rem := 1 } := by decide

theorem test_V43_7_dec_hl :
    stateOf (step { boot 65536 [0x2B] with h := 0x00, l := 0x01 }) =
      some { boot 65536 [0x2B] with h := 0x00, l := 0x00, pc := 0x0001, rem := 1 } := by decide

theorem test_V43_8_dec_sp :
    stateOf (step { patterned 65536 [0x3B] with sp := 0x0000 }) =
      some { patterned 65536 [0x3B] with sp := 0xFFFF, pc := 0x0001, rem := 1 } := by decide

theorem test_V43_9_add_de :
    nextIs (step { patterned 65536 [0x19] with h := 0x8A, l := 0x23, d := 0x06, e := 0x05 })
      (fun t => t.get16 .hl == 0x9028 && t.get16 .de == 0x0605 && flags t == [true, false, true, false]) = true := by decide

theorem test_V43_10_add_hl_hl :
    nextIs (step { boot 65536 [0x29] with h := 0x80 })
      (fun t => t.get16 .hl == 0x0000 && flags t == [false, false, false, true]) = true := by decide

theorem test_V43_11_add_sp :
    nextIs (step { boot 65536 [0x39] with l := 0x01, sp := 0xFFFF })
      (fun t => t.get16 .hl == 0x0000 && t.sp == 0xFFFF && flags t == [false, false, true, true]) = true := by decide

theorem test_V43_12_add_bc :
    nextIs (step { boot 65536 [0x09] with h := 0xFF, l := 0xFF, c := 0x01 })
      (fun t => t.get16 .hl == 0x0000 && flags t == [false, false, true, true]) = true := by decide

theorem test_V43_13_flags_assigned :
    nextIs (step { patterned 65536 [0x09] with h := 0x00, l := 0x02, b := 0x00, c := 0x03 })
      (fun t => t.get16 .hl == 0x0005 && flags t == [true, false, false, false]) = true := by decide

theorem test_V43_14_add_hl_hl_half :
    nextIs (step { boot 65536 [0x29] with h := 0x08 })
      (fun t => t.get16 .hl == 0x1000 && flags t == [false, false, true, false]) = true := by decide

/-- L6: two loads and the sum, with the half carry of L6b and the carry of L6c computed apart. -/
theorem test_L6_add_bc_variants :
    nextIs (steps 9 (boot 65536 [0x01, 0xFF, 0x0F, 0x21, 0xFF, 0x0F, 0x09, 0x76]))
      (fun t => t.get16 .hl == 0x1FFE && flags t == [false, false, true, false] && t.pc == 0x0008 && t.halted) = true ∧
    nextIs (steps 9 (boot 65536 [0x01, 0x00, 0xF0, 0x21, 0x00, 0xF0, 0x09, 0x76]))
      (fun t => t.get16 .hl == 0xE000 && flags t == [false, false, false, true]) = true := by decide

/-! ## INC r, DEC r, LD r,d8 (V44) -/

theorem test_V44_1_inc_b :
    stateOf (step { patterned 65536 [0x04] with b := 0x00 }) =
      some { patterned 65536 [0x04] with b := 0x01, fZ := false, fN := false, fH := false, pc := 0x0001 } := by decide

theorem test_V44_2_inc_b_half :
    nextIs (step { boot 65536 [0x04] with b := 0x0F })
      (fun t => t.b == 0x10 && flags t == [false, false, true, false]) = true := by decide

theorem test_V44_3_inc_a_wraps :
    nextIs (step { boot 65536 [0x3C] with a := 0xFF })
      (fun t => t.a == 0x00 && flags t == [true, false, true, false]) = true := by decide

theorem test_V44_10_inc_a_keeps_carry :
    nextIs (step { boot 65536 [0x3C] with a := 0x7F, fC := true })
      (fun t => t.a == 0x80 && flags t == [false, false, true, true]) = true := by decide

theorem test_V44_9_inc_l_no_carry_into_h :
    nextIs (step { boot 65536 [0x2C] with h := 0x12, l := 0xFF })
      (fun t => t.l == 0x00 && t.h == 0x12 && flags t == [true, false, true, false]) = true := by decide

/-- The other four INC: each adds one to its own cell only. -/
theorem test_inc_c_d_e_h :
    [0x0C, 0x14, 0x1C, 0x24].map (fun opc => (stateOf (step (patterned 65536 [opc]))).map cells) =
    [some [0x10, 0x22, 0x32, 0x43, 0x54, 0x65, 0x76], some [0x10, 0x21, 0x33, 0x43, 0x54, 0x65, 0x76],
      some [0x10, 0x21, 0x32, 0x44, 0x54, 0x65, 0x76], some [0x10, 0x21, 0x32, 0x43, 0x55, 0x65, 0x76]] := by decide

theorem test_V44_4_dec_c_to_zero :
    nextIs (step { boot 65536 [0x0D] with c := 0x01 })
      (fun t => t.c == 0x00 && flags t == [true, true, false, false]) = true := by decide

theorem test_V44_5_dec_c_from_zero :
    nextIs (step { boot 65536 [0x0D] with c := 0x00 })
      (fun t => t.c == 0xFF && flags t == [false, true, true, false]) = true := by decide

theorem test_V44_6_dec_l_borrow :
    nextIs (step { patterned 65536 [0x2D] with l := 0x10 })
      (fun t => t.l == 0x0F && flags t == [false, true, true, true]) = true := by decide

/-- The other five DEC: each takes one from its own cell only. -/
theorem test_dec_b_d_e_h_a :
    [0x05, 0x15, 0x1D, 0x25, 0x3D].map (fun opc => (stateOf (step (patterned 65536 [opc]))).map cells) =
    [some [0x0F, 0x21, 0x32, 0x43, 0x54, 0x65, 0x76], some [0x10, 0x21, 0x31, 0x43, 0x54, 0x65, 0x76],
      some [0x10, 0x21, 0x32, 0x42, 0x54, 0x65, 0x76], some [0x10, 0x21, 0x32, 0x43, 0x53, 0x65, 0x76],
      some [0x10, 0x21, 0x32, 0x43, 0x54, 0x65, 0x75]] := by decide

theorem test_V44_7_inc_indHl :
    nextIs (step { (boot 65536 [0x34]).placeBytes [0xFF] 0x0010 with l := 0x10 })
      (fun t => t.mem.read 0x0010 == 0x00 && t.get16 .hl == 0x0010 && flags t == [true, false, true, false]) = true := by
  decide

theorem test_V44_15_inc_indHl_faults :
    faultOf (step { boot 16 [0x34] with l := 0x10 }) = some (.memOutOfRange 0x0010) := by decide

theorem test_V44_8_dec_indHl :
    nextIs (step { (boot 65536 [0x35]).placeBytes [0x01] 0x0010 with l := 0x10 })
      (fun t => t.mem.read 0x0010 == 0x00 && flags t == [true, true, false, false]) = true := by decide

theorem test_dec_indHl_faults :
    faultOf (step { boot 16 [0x35] with l := 0x10 }) = some (.memOutOfRange 0x0010) := by decide

theorem test_V44_12_store_over_own_immediate :
    nextIs (step { boot 65536 [0x36, 0xAB] with l := 0x01 })
      (fun t => t.mem.read 0x0001 == 0xAB && t.pc == 0x0002 && t.rem == 1) = true := by decide

theorem test_V44_13_store_ahead_then_fetch :
    nextIs (steps 3 { boot 65536 [0x36, 0x76, 0x04] with l := 0x02 })
      (fun t => t.halted && t.b == 0x00 && t.pc == 0x0003) = true := by decide

/-- LD r,d8 for the seven cells: the byte as it is (V44-14), in its own cell only, flags kept. -/
theorem test_ld_r_d8 :
    [0x06, 0x0E, 0x16, 0x1E, 0x26, 0x2E, 0x3E].map (fun opc => (stateOf (step (patterned 65536 [opc, 0x80]))).map cells) =
    [some [0x80, 0x21, 0x32, 0x43, 0x54, 0x65, 0x76], some [0x10, 0x80, 0x32, 0x43, 0x54, 0x65, 0x76],
      some [0x10, 0x21, 0x80, 0x43, 0x54, 0x65, 0x76], some [0x10, 0x21, 0x32, 0x80, 0x54, 0x65, 0x76],
      some [0x10, 0x21, 0x32, 0x43, 0x80, 0x65, 0x76], some [0x10, 0x21, 0x32, 0x43, 0x54, 0x80, 0x76],
      some [0x10, 0x21, 0x32, 0x43, 0x54, 0x65, 0x80]] := by decide

theorem test_V44_16_missing_d8 :
    faultOf (steps 3 (boot 3 [0x00, 0x00, 0x06])) = some (.memOutOfRange 0x0003) := by decide

theorem test_V44_17_d8_wraps :
    nextIs (step { (boot 65536 [0x99]).placeBytes [0x3E] 0xFFFF with pc := 0xFFFF })
      (fun t => t.a == 0x99 && t.pc == 0x0001) = true := by decide

/-! ## LD r,r' (V45): byte 0x40 + 8 * ddd + sss puts the cell of sss into the cell of ddd; A is slot 7 -/

/-- The slot numbers in the order of `cells` (10_state.md R21). -/
def slotNumbers : List Nat := [0, 1, 2, 3, 4, 5, 7]

/-- The cells after the move of slot number `sss` to slot number `ddd`, from the patterned cells. -/
def cellsAfterMove (ddd sss : Nat) : Option (List Byte) :=
  (stateOf (step (patterned 65536 [BitVec.ofNat 8 (0x40 + 8 * ddd + sss)]))).map cells

theorem test_moves_to_b_c_d :
    slotNumbers.map (cellsAfterMove 0) =
      [0x10, 0x21, 0x32, 0x43, 0x54, 0x65, 0x76].map (fun v => some [v, 0x21, 0x32, 0x43, 0x54, 0x65, 0x76]) ∧
    slotNumbers.map (cellsAfterMove 1) =
      [0x10, 0x21, 0x32, 0x43, 0x54, 0x65, 0x76].map (fun v => some [0x10, v, 0x32, 0x43, 0x54, 0x65, 0x76]) ∧
    slotNumbers.map (cellsAfterMove 2) =
      [0x10, 0x21, 0x32, 0x43, 0x54, 0x65, 0x76].map (fun v => some [0x10, 0x21, v, 0x43, 0x54, 0x65, 0x76]) := by decide

theorem test_moves_to_e_h_l_a :
    slotNumbers.map (cellsAfterMove 3) =
      [0x10, 0x21, 0x32, 0x43, 0x54, 0x65, 0x76].map (fun v => some [0x10, 0x21, 0x32, v, 0x54, 0x65, 0x76]) ∧
    slotNumbers.map (cellsAfterMove 4) =
      [0x10, 0x21, 0x32, 0x43, 0x54, 0x65, 0x76].map (fun v => some [0x10, 0x21, 0x32, 0x43, v, 0x65, 0x76]) ∧
    slotNumbers.map (cellsAfterMove 5) =
      [0x10, 0x21, 0x32, 0x43, 0x54, 0x65, 0x76].map (fun v => some [0x10, 0x21, 0x32, 0x43, 0x54, v, 0x76]) ∧
    slotNumbers.map (cellsAfterMove 7) =
      [0x10, 0x21, 0x32, 0x43, 0x54, 0x65, 0x76].map (fun v => some [0x10, 0x21, 0x32, 0x43, 0x54, 0x65, v]) := by decide

theorem test_V45_3_move_to_itself :
    stateOf (step { boot 65536 [0x7F] with a := 0x5A }) = some { boot 65536 [0x7F] with a := 0x5A, pc := 0x0001 } := by decide

theorem test_V45_4_move_l_to_h :
    nextIs (step { boot 65536 [0x65] with h := 0x12, l := 0xAB }) (fun t => t.get16 .hl == 0xABAB) = true := by decide

/-! ## Unimplemented bytes (V46, V42-8, V45-6, V45-7): Diag of the byte and nothing else -/

/-- The 32 bytes below 0x80 (30_encoding.md R91) and the two ends of the rest, each as the first byte of memory. -/
theorem test_unimplemented_bytes :
    ([0x07, 0x0F, 0x10, 0x17, 0x18, 0x1F, 0x20, 0x22, 0x27, 0x28, 0x2A, 0x2F, 0x30, 0x32, 0x37, 0x38, 0x3A, 0x3F, 0x46,
      0x4E, 0x56, 0x5E, 0x66, 0x6E, 0x70, 0x71, 0x72, 0x73, 0x74, 0x75, 0x77, 0x7E, 0x80, 0xFF].all (fun opc =>
      nextIs (step (patterned 65536 [opc]))
        (fun t => t == { patterned 65536 [opc] with pc := 0x0001, log := [{ byte := opc }] }))) = true := by decide

theorem test_V46_3_no_prefix :
    nextIs (steps 2 { boot 65536 [0xCB, 0x7C] with h := 0x80 }) (fun t => t.a == 0x80 && t.log == [{ byte := 0xCB }]) = true := by
  decide

theorem test_V46_5_overrun_after_miss :
    nextIs (step (boot 1 [0xFF]))
      (fun t => t.log == [{ byte := 0xFF }] && t.pc == 0x0001 && !t.halted && t.rem == 0 && t.ended) = true := by decide

/-! ## The run loop, ticks, reset (V70, P4, P5, L9) -/

theorem test_V70_1_tick_trace :
    [1, 2, 3, 4].map (fun n => (stateOf (runN n (boot 65536 [0x01, 0x34, 0x12, 0x76]))).map (fun t => (t.pc, t.rem, t.halted)))
    = [some (0x0003, 2, false), some (0x0003, 1, false), some (0x0003, 0, false), some (0x0004, 0, true)] := by decide

theorem test_V70_4_overrun_leaves_latency :
    nextIs (runN 2 { boot 2 [0x00, 0x13] with d := 0xFF, e := 0xFF })
      (fun t => t.get16 .de == 0x0000 && t.pc == 0x0002 && t.rem == 1 && t.ended) = true := by decide

theorem test_V70_5_packed_flags :
    State.packF { boot 1 [] with fZ := true, fH := true } = 0x05 ∧ (patterned 1 []).packF = 0x0F ∧ (boot 1 []).packF = 0x00 := by
  decide

theorem test_V70_6_construction :
    State.reset.pc = 0x0000 ∧ State.reset.rem = 0 ∧ State.reset.halted = false ∧ State.reset.log = [] ∧ State.reset.mem = [] := by
  decide

theorem test_P4_end_state :
    nextIs (runN 8 { boot 8 [0xC3, 0x06, 0x00, 0x7E, 0x3C, 0x00, 0x00, 0x13] with a := 0x0F, d := 0xFF, e := 0xFF })
      (fun t => cells t == [0x00, 0x00, 0x00, 0x00, 0x00, 0x00, 0x10] && flags t == [false, false, true, false] &&
        t.pc == 0x0008 && t.rem == 1 && !t.halted && t.log == [{ byte := 0xC3 }, { byte := 0x7E }]) = true := by decide

theorem test_P5_second_run_continues :
    nextIs (runN 2 { boot 65536 [0x3C, 0x76, 0x3C, 0x76] with a := 0x01, pc := 0x0002, halted := true })
      (fun t => t.a == 0x02 && t.pc == 0x0004 && t.halted) = true := by decide

/-- R245: a fresh start is a new CPU. After a first run the new CPU runs the same buffer from 0 with its own launch values. -/
theorem test_new_cpu_over_used_memory :
    nextIs (runN 2 (boot 65536 [0x3C, 0x76])) (fun s =>
      s.pc == 0x0002 && s.a == 0x01 && nextIs (runN 2 (s.newCpu { Config.resetInit with a := 0x0F }))
        (fun t => t.a == 0x10 && t.pc == 0x0002 && t.mem == s.mem)) = true := by decide

/-- The CPU's own state, its log included, is new; the buffer is not. -/
theorem test_new_cpu_fields :
    (({ patterned 4 [0xD3] with pc := 0x0001, rem := 1, halted := true, log := [{ byte := 0xD3 }] } : State).newCpu
      Config.resetInit) = boot 4 [0xD3] := by decide

theorem test_L9_load_truncates :
    ((boot 4 []).load [0x01, 0x02, 0x03, 0x04, 0x05, 0x06] 2).map (fun t => [0, 1, 2, 3, 4].map t.mem.read) =
      .ok [0x00, 0x00, 0x01, 0x02, 0x00] ∧
    ((boot 65536 []).load [0xAA, 0xBB] 0xFFFF).map (fun t => [0xFFFF, 0].map t.mem.read) = .ok [0xAA, 0x00] := by decide

/-- Writing the blank byte unlists the address, and listed addresses rise. -/
theorem test_memory_canonical :
    ((boot 16 [0x01, 0x02]).placeBytes [0x00] 0).mem = [(1, 0x02)] ∧ (boot 16 [0x00, 0x02, 0x00, 0x04]).mem.wf = true ∧
    Memory.wf [(2, 0x01), (1, 0x01)] = false ∧ Memory.wf [(1, 0x00)] = false := by decide

/-- The accessors (10_state.md R46). -/
theorem test_accessors :
    (patterned 1 []).accessors.bc = 0x1021 ∧ (patterned 1 []).accessors.hl = 0x5465 ∧
    (patterned 1 []).accessors.cell = [0x10, 0x21, 0x32, 0x43, 0x54, 0x65, 0x76] := by decide

/-! ## Witnesses: for each statement with hypotheses, a concrete input that meets them all together -/

/-- A `LD BC,d16` at 0, in a run that has not ended, with no latency. -/
def fetching : State := boot 65536 [0x01, 0x34, 0x12]

theorem witness_DecodeOfEncode :
    (Instr.unimpl80ToFF 0x80).wf = true ∧ (Instr.unimpl80ToFF 0xFF).wf = true ∧ (Instr.ldBcD16 0x1234).wf = true := by decide

theorem witness_EncodeOfDecode :
    decode [0x01, 0x34, 0x12, 0x76] = .ok (.ldBcD16 0x1234, [0x76]) ∧
    decode [0x80] = .ok (.unimpl80ToFF 0x80, []) := by decide

theorem witness_UnimplementedByteSet :
    Instr.unimpl7E.family = .unimplemented ∧ (Instr.unimpl80ToFF 0x80).family = .unimplemented ∧
    Instr.ldAA.family ≠ .unimplemented ∧ decoded [0x7F, 0, 0] = some .ldAA ∧ decoded [0x7E, 0, 0] = some .unimpl7E := by
  decide

theorem witness_InstructionLength :
    decode [0x08, 0x00, 0xC0] = .ok (.ldSpD16Alias 0xC000, []) ∧ decode [0x36, 0xFF] = .ok (.ldIndHlD8 0xFF, []) ∧
    decode [0x00] = .ok (.nop, []) ∧ decode [0xCB, 0x7C] = .ok (.unimpl80ToFF 0xCB, [0x7C]) := by decide

theorem witness_StepRunsDecodedInstruction :
    (fetching.ended = false ∧ fetching.rem = 0 ∧ decode (fetching.bytesFrom 3 fetching.pc) = .ok (.ldBcD16 0x1234, [])) ∧
    (wrapped.ended = false ∧ wrapped.rem = 0 ∧ decode (wrapped.bytesFrom 3 wrapped.pc) = .ok (.ldBcD16 0x1234, [])) ∧
    decode ((boot 1 [0x76]).bytesFrom 3 0) = .ok (.halt, []) := by decide

theorem witness_StepBurnsLatency :
    State.ended { boot 1 [] with rem := 1 } = false ∧ State.ended { boot 65536 [] with rem := 2 } = false := by decide

theorem witness_StepFaultsOnMissingImmediate :
    ((boot 1 [0x01]).ended = false ∧ (boot 1 [0x01]).rem = 0 ∧
      decode ((boot 1 [0x01]).bytesFrom 3 (boot 1 [0x01]).pc) = .error .missingImmediate) ∧
    ((boot 2 [0x01, 0x34]).ended = false ∧ (boot 2 [0x01, 0x34]).rem = 0 ∧
      decode ((boot 2 [0x01, 0x34]).bytesFrom 3 (boot 2 [0x01, 0x34]).pc) = .error .missingImmediate) ∧
    decode ((boot 1 [0x06]).bytesFrom 3 (boot 1 [0x06]).pc) = .error .missingImmediate := by decide

theorem witness_EndedRunRests :
    (State.halted { boot 65536 [] with halted := true } = true) ∧ (boot 4 []).memSize ≤ (State.pc { boot 4 [] with pc := 4 }).toNat := by
  decide

theorem witness_MissLogsAndContinues :
    ((boot 65536 [0xD3]).ended = false ∧ (boot 65536 [0xD3]).rem = 0 ∧
      decode ((boot 65536 [0xD3]).bytesFrom 3 (boot 65536 [0xD3]).pc) = .ok (.unimpl80ToFF 0xD3, [0x00, 0x00]) ∧
      (Instr.unimpl80ToFF 0xD3).family = .unimplemented) ∧
    ((boot 1 [0x07]).ended = false ∧ (boot 1 [0x07]).rem = 0 ∧
      decode ((boot 1 [0x07]).bytesFrom 3 (boot 1 [0x07]).pc) = .ok (.unimpl07, []) ∧
      Instr.unimpl07.family = .unimplemented) := by decide

theorem witness_MemoryStartsZeroed :
    ([0xAA, 0xBB] : List Byte)[1]? = some 0xBB ∧ 2 + 1 < (boot 4 []).memSize ∧ ¬ 3 + 1 < (boot 4 []).memSize := by decide

theorem witness_RunEntryClearsOnlyHalted :
    nextIs (runN 2 (boot 65536 [0x3C, 0x00, 0x76])) (fun t => !t.halted && t.a == 0x01) = true ∧
    nextIs (runN 0 (boot 1 [])) (fun t => !t.halted) = true := by decide

theorem witness_InvariantAtReset : 1 ≤ 1 ∧ 1 ≤ 65536 ∧ (State.construct 1 Config.resetInit).Inv ∧ State.reset.Inv := by decide

/-- The invariant at its boundaries: PC at the end of the buffer with latency left, and a halted core. -/
theorem witness_StepKeepsInvariant :
    (State.Inv fetching ∧ (stateOf (step fetching)).isSome) ∧
    (State.Inv { boot 2 [0x00, 0x13] with pc := 0x0002, rem := 2 } ∧
      (stateOf (step { boot 2 [0x00, 0x13] with pc := 0x0002, rem := 2 })).isSome) ∧
    (State.Inv { boot 65536 [0x76] with pc := 0x0001, halted := true } ∧
      (stateOf (step { boot 65536 [0x76] with pc := 0x0001, halted := true })).isSome) := by decide

theorem witness_CapacityNeverChanges : (stateOf (step (boot 1 [0x00]))).isSome = true := by decide

theorem witness_CanonicalMemoryIsUnique :
    Memory.wf [(1, 0x02), (3, 0x04)] = true ∧ (boot 16 [0x00, 0x02, 0x00, 0x04]).mem = [(1, 0x02), (3, 0x04)] := by decide

theorem witness_LogIsOutputOnly :
    nextIs (step (boot 65536 [0xD3])) (fun t => t.log.length == 1) = true ∧
    nextIs (step fetching) (fun t => t.log.length == 0) = true := by decide

theorem witness_OneEventPerUnrecognisedByte :
    (stateOf (exec .unimpl7E (boot 1 []))).isSome = true ∧ (stateOf (exec .nop (boot 1 []))).isSome = true ∧
    Instr.unimpl7E.family = .unimplemented ∧ Instr.nop.family ≠ .unimplemented := by decide

theorem witness_HaltedFlagUse : State.halted { boot 1 [] with halted := true } = true := by decide

theorem witness_ExecLeavesPcAndCapacity :
    (stateOf (exec .halt { boot 1 [] with pc := 0xFFFF })).isSome = true := by decide

/-- One instruction of each branch, the kept branch on a wired instruction and on an unimplemented byte. -/
theorem witness_FlagWriters :
    [Instr.addHlSp, .incA, .incIndHl, .decB, .decIndHl, .ldAB, .unimpl22].map
      (fun i => (i.family, (stateOf (exec i (patterned 65536 []))).map flags)) =
    [(.addHl, some [true, false, false, false]), (.inc8, some [false, false, false, true]),
      (.inc8, some [false, false, false, true]), (.dec8, some [false, true, true, true]),
      (.dec8, some [false, true, true, true]), (.move8, some [true, true, true, true]),
      (.unimplemented, some [true, true, true, true])] := by decide

theorem witness_SpUsedByPairThreeOnly :
    ((∀ w, Instr.addHlBc ≠ .ldSpD16 w) ∧ (∀ w, Instr.addHlBc ≠ .ldSpD16Alias w) ∧ Instr.addHlBc ≠ .incSp ∧
      Instr.addHlBc ≠ .decSp ∧ Instr.addHlBc ≠ .addHlSp) ∧
    (stateOf (exec .addHlSp (patterned 1 []))).isSome = true := by
  refine ⟨⟨nofun, nofun, nofun, nofun, nofun⟩, by decide⟩

theorem witness_DataMemoryUsers :
    (Instr.incA ≠ .ldIndBcA ∧ Instr.incA ≠ .ldIndDeA ∧ Instr.incA ≠ .ldAIndBc ∧ Instr.incA ≠ .ldAIndDe ∧
      Instr.incA ≠ .incIndHl ∧ Instr.incA ≠ .decIndHl ∧ ∀ v, Instr.incA ≠ .ldIndHlD8 v) ∧
    (Instr.incIndHl ≠ .ldAIndBc ∧ Instr.incIndHl ≠ .ldAIndDe ∧
      (stateOf (exec .incIndHl (patterned 65536 []))).isSome = true ∧
      (stateOf (exec .incIndHl { patterned 65536 [] with mem := [(0x5465, 0xFF)] })).isSome = true) ∧
    (Instr.incIndHl ≠ .ldIndBcA ∧ Instr.incIndHl ≠ .ldIndDeA ∧
      (stateOf (exec .incIndHl { patterned 65536 [] with a := 0x00 })).isSome = true) := by
  refine ⟨⟨nofun, nofun, nofun, nofun, nofun, nofun, nofun⟩, ⟨nofun, nofun, by decide, by decide⟩, nofun, nofun, by decide⟩

/-- A storing form, an address outside the stored byte, and a form that stores nothing. -/
theorem witness_MemoryFrame :
    ((stateOf (exec .ldIndBcA (patterned 65536 []))).isSome = true ∧
      storeAddress .ldIndBcA (patterned 65536 []) = some 0x1021 ∧ storedByte .ldIndBcA (patterned 65536 []) = some 0x76) ∧
    storeAddress .ldAIndBc (patterned 65536 []) = none ∧
    storedByte (.ldIndHlD8 0x5A) (patterned 65536 []) = some 0x5A ∧
    storedByte .decIndHl (patterned 65536 []) = some 0xFF ∧ storedByte .incIndHl (patterned 65536 []) = some 0x01 := by decide

theorem witness_RegisterFrame :
    Reg8.b ∉ destRegs .addHlSp ∧ Reg8.h ∈ destRegs .addHlSp ∧ destRegs .ldIndDeA = [] ∧
    (stateOf (exec .addHlSp (patterned 1 []))).map (fun t => (t.b, t.sp)) = some (0x10, 0x8798) := by decide

/-- The last address of the buffer and the first one outside it. -/
theorem witness_MemoryPrimitives :
    (0x000F#16).toNat < (boot 16 []).memSize ∧ (boot 16 []).memSize ≤ (0x0010#16).toNat ∧ (0x000E#16) ≠ 0x000F#16 := by decide

theorem witness_StoreSeenByNextFetch :
    (stateOf (exec .ldIndBcA { patterned 65536 [] with pc := 0x1021 })).isSome = true ∧
    storeAddress .ldIndBcA { patterned 65536 [] with pc := 0x1021 } = some 0x1021 ∧
    storedByte .ldIndBcA { patterned 65536 [] with pc := 0x1021 } = some 0x76 := by decide

theorem witness_SlotAccessors :
    ((patterned 65536 []).set8 .indHl 0x5A).isOk = true ∧ ((patterned 65536 []).set8 (.reg .a) 0x5A).isOk = true := by decide

/-- A negative offset; and for the copied range its first address, the last one in the buffer and the first outside it. -/
theorem witness_LoadCopiesWhatFits :
    (-1 : Int) < 0 ∧ (2 ≤ 2 ∧ 2 < (boot 4 []).memSize) ∧ (2 ≤ 3 ∧ 3 < (boot 4 []).memSize) ∧ ¬ 4 < (boot 4 []).memSize := by
  decide

/-- A fault at the first address outside, none at the last inside, none where there is no data address. -/
theorem witness_FaultsExactlyOutsideBuffer :
    dataAddress .incIndHl { boot 16 [] with l := 0x10 } = some 0x0010 ∧
    faultOf (exec .incIndHl { boot 16 [] with l := 0x10 }) = some (.memOutOfRange 0x0010) ∧
    faultOf (exec .incIndHl { boot 16 [] with l := 0x0F }) = none ∧ dataAddress .addHlSp (boot 16 []) = none := by decide

theorem witness_EveryInstructionCompletes :
    dataAddress .incIndHl { boot 16 [] with l := 0x0F } = some 0x000F ∧
    (0x000F#16).toNat < (State.memSize { boot 16 [] with l := 0x0F }) ∧ dataAddress .nop (boot 16 []) = none := by decide

theorem witness_FullMemoryNeverFaults : (boot 65536 []).memSize = 65536 := by decide

/-- One instruction of each branch. -/
theorem witness_DeclaredCosts :
    [Instr.ldDeD16 1, .ldSpD16Alias 1, .ldIndDeA, .ldIndHlD8 1, .incSp, .halt, .decIndHl, .unimpl77].map
      (fun i => (stateOf (exec i { boot 65536 [] with rem := 1 })).map (fun t => t.rem)) =
    [some 2, some 2, some 1, some 1, some 1, some 0, some 0, some 1] := by decide

/-- Costs 3 and 1. -/
theorem witness_TicksEqualDeclaredCost :
    (fetching.ended = false ∧ fetching.rem = 0 ∧ decode (fetching.bytesFrom 3 fetching.pc) = .ok (.ldBcD16 0x1234, []) ∧
      (Instr.ldBcD16 0x1234).family.cost = some 3 ∧ nextIs (step fetching) (fun t => !t.ended) = true) ∧
    ((boot 65536 []).ended = false ∧ decode ((boot 65536 []).bytesFrom 3 0) = .ok (.nop, [0x00, 0x00]) ∧
      Instr.nop.family.cost = some 1 ∧ nextIs (step (boot 65536 [])) (fun t => !t.ended) = true) := by decide

/-- Ticks and whole-instruction steps that end in a next state, with latency left at the start, and in a fault. -/
theorem witness_TimingChangesNoResult :
    (stateOf (steps 5 { fetching with rem := 2 })).isSome = true ∧
    faultOf (steps 3 (boot 3 [0x00, 0x00, 0x01])) = some (.memOutOfRange 0x0003) ∧
    (stateOf (instrSteps 2 (fetching.setRem 0))).isSome = true ∧
    faultOf (instrSteps 3 ((boot 3 [0x00, 0x00, 0x01]).setRem 0)) = some (.memOutOfRange 0x0003) := by decide

/-- A run that faults, one that overruns, one that halts; with the bound of the statement. -/
theorem witness_SmallMemoryRunsEnd :
    (boot 3 [0x00, 0x00, 0x01]).memSize < 65536 ∧ faultOf (runN 9 (boot 3 [0x00, 0x00, 0x01])) = some (.memOutOfRange 0x0003) ∧
    nextIs (runN 6 (boot 2 [0x00, 0x13])) (fun t => t.ended && !t.halted) = true ∧
    nextIs (runN 6 (boot 2 [0x76])) (fun t => t.ended && t.halted) = true := by decide

/-- A run that halts and one that overruns, each from a state that meets the invariant. -/
theorem witness_RunEndsHaltedOrOverrun :
    (State.Inv (boot 65536 [0x76]) ∧ RunReturns (boot 65536 [0x76]) { boot 65536 [0x76] with halted := true, pc := 0x0001 }) ∧
    (State.Inv (boot 1 [0x00]) ∧ RunReturns (boot 1 [0x00]) { boot 1 [0x00] with pc := 0x0001 }) :=
  ⟨⟨by decide, 1, rfl, by decide⟩, by decide, 1, rfl, by decide⟩

theorem witness_NopOnlyAdvances :
    (boot 1 []).ended = false ∧ (boot 1 []).rem = 0 ∧ (boot 1 []).mem.read (boot 1 []).pc.toNat = 0x00 := by decide

/-- Each store through a pair at the last address of the buffer and at the first outside it. -/
theorem witness_StoreAccumulator :
    (Instr.ldIndBcA, Pair.bc) ∈ [(Instr.ldIndBcA, Pair.bc), (.ldIndDeA, .de)] ∧
    (Instr.ldIndDeA, Pair.de) ∈ [(Instr.ldIndBcA, Pair.bc), (.ldIndDeA, .de)] ∧
    (State.get16 { boot 16 [] with c := 0x0F, e := 0x0F } .bc).toNat < (boot 16 []).memSize ∧
    (State.get16 { boot 16 [] with c := 0x0F, e := 0x0F } .de).toNat < (boot 16 []).memSize ∧
    (boot 16 []).memSize ≤ (State.get16 { boot 16 [] with c := 0x10, e := 0x10 } .bc).toNat ∧
    (boot 16 []).memSize ≤ (State.get16 { boot 16 [] with c := 0x10, e := 0x10 } .de).toNat := by decide

/-- Each load through a pair at the last address of the buffer and at the first outside it. -/
theorem witness_LoadAccumulator :
    (Instr.ldAIndBc, Pair.bc) ∈ [(Instr.ldAIndBc, Pair.bc), (.ldAIndDe, .de)] ∧
    (Instr.ldAIndDe, Pair.de) ∈ [(Instr.ldAIndBc, Pair.bc), (.ldAIndDe, .de)] ∧
    (State.get16 { boot 16 [] with c := 0x0F, e := 0x0F } .bc).toNat < (boot 16 []).memSize ∧
    (State.get16 { boot 16 [] with c := 0x0F, e := 0x0F } .de).toNat < (boot 16 []).memSize ∧
    (boot 16 []).memSize ≤ (State.get16 { boot 16 [] with c := 0x10, e := 0x10 } .bc).toNat ∧
    (boot 16 []).memSize ≤ (State.get16 { boot 16 [] with c := 0x10, e := 0x10 } .de).toNat := by decide

theorem witness_AddPairToHl : (stateOf (exec .addHlHl { boot 1 [] with h := 0x88 })).isSome = true := by decide

/-- HL at the last address of the buffer, holding 0xFF, and at the first outside it. -/
theorem witness_IncrementMemoryByte :
    Memory.read [(0x0F, 0xFF)] (State.get16 { boot 16 [] with l := 0x0F } .hl).toNat = 0xFF ∧
    (State.get16 { boot 16 [] with l := 0x0F } .hl).toNat < (boot 16 []).memSize ∧
    (boot 16 []).memSize ≤ (State.get16 { boot 16 [] with l := 0x10 } .hl).toNat := by decide

/-- HL at the last address of the buffer, holding 0x01, and at the first outside it. -/
theorem witness_DecrementMemoryByte :
    Memory.read [(0x0F, 0x01)] (State.get16 { boot 16 [] with l := 0x0F } .hl).toNat = 0x01 ∧
    (State.get16 { boot 16 [] with l := 0x0F } .hl).toNat < (boot 16 []).memSize ∧
    (boot 16 []).memSize ≤ (State.get16 { boot 16 [] with l := 0x10 } .hl).toNat := by decide

theorem witness_StoreImmediateAtHl :
    (State.get16 { boot 16 [] with l := 0x0F } .hl).toNat < (boot 16 []).memSize ∧
    (boot 16 []).memSize ≤ (State.get16 { boot 16 [] with l := 0x10 } .hl).toNat := by decide

/-- A cell other than the destination. -/
theorem witness_LoadRegisterImmediate : Reg8.a ≠ Reg8.b := by decide

/-- A cell other than the destination, and a move of a cell onto itself. -/
theorem witness_MoveRegister : Reg8.l ≠ Reg8.h ∧ move8Of .a .a = .ldAA := by decide

theorem witness_UnimplementedEmitsDiagnostic :
    Instr.unimpl07.family = .unimplemented ∧ (Instr.unimpl80ToFF 0xFF).family = .unimplemented := by decide

theorem witness_NewCpuOverUsedMemory :
    State.Inv { patterned 4 [0xD3] with pc := 0x0004, rem := 2 } ∧
    State.Inv { patterned 4 [0x76] with pc := 0x0001, halted := true } := by decide

end Sys2Proof.Tests
end

section
/-! SUPPORT. Updates of a field that an instruction does not touch: such an update commutes with `exec`. It is proved once, for
every update with the few laws of `Untouched`, and used for the halted flag, SP and the log (10_state.md R29, R34, R39). -/

namespace Sys2Proof.Machine

variable {f : State → State}

/-! ## Pairs as two cells -/

theorem State.get16_bc (s : State) : s.get16 .bc = compose16 (s.getReg .b) (s.getReg .c) := rfl

theorem State.get16_de (s : State) : s.get16 .de = compose16 (s.getReg .d) (s.getReg .e) := rfl

theorem State.get16_hl (s : State) : s.get16 .hl = compose16 (s.getReg .h) (s.getReg .l) := rfl

theorem State.set16_bc (s : State) (v : Word) : s.set16 .bc v = (s.setReg .b (hi8 v)).setReg .c (lo8 v) := rfl

theorem State.set16_de (s : State) (v : Word) : s.set16 .de v = (s.setReg .d (hi8 v)).setReg .e (lo8 v) := rfl

theorem State.set16_hl (s : State) (v : Word) : s.set16 .hl v = (s.setReg .h (hi8 v)).setReg .l (lo8 v) := rfl

/-! ## Outcomes -/

@[simp] theorem onNext_next (g : State → State) (s : State) : onNext g (.next s) = .next (g s) := rfl

@[simp] theorem onNext_fault (g : State → State) (r : Fault) : onNext g (.fault r) = .fault r := rfl

theorem onNext_onNext (g k : State → State) (o : Host.Outcome State Fault Refusal) :
    onNext g (onNext k o) = onNext (g ∘ k) o := by
  cases o <;> rfl

/-! ## Updates that touch neither cells, memory nor flags -/

/-- `f` keeps the cells, the buffer and the flags that are passed on, and commutes with every update of a cell, the buffer, the
flags and `rem`. For an `f` that only assigns another field each law holds by definition. -/
structure Untouched (f : State → State) : Prop where
  getReg : ∀ s r, (f s).getReg r = s.getReg r := by intro s r; cases r <;> rfl
  memSize : ∀ s, (f s).memSize = s.memSize := by intros; rfl
  mem : ∀ s, (f s).mem = s.mem := by intros; rfl
  fZ : ∀ s, (f s).fZ = s.fZ := by intros; rfl
  fC : ∀ s, (f s).fC = s.fC := by intros; rfl
  setReg : ∀ s r v, f (s.setReg r v) = (f s).setReg r v := by intro s r v; cases r <;> rfl
  write : ∀ (s : State) addr v,
    f { s with mem := s.mem.write addr v } = { f s with mem := s.mem.write addr v } := by intros; rfl
  setFlags : ∀ s z n hc cy, f (s.setFlags z n hc cy) = (f s).setFlags z n hc cy := by intros; rfl
  setRem : ∀ s n, f (s.setRem n) = (f s).setRem n := by intros; rfl

/-- `f` keeps SP and commutes with its update. -/
structure UntouchedSp (f : State → State) : Prop where
  sp : ∀ s, (f s).sp = s.sp := by intros; rfl
  setSp : ∀ s v, f (s.setSp v) = (f s).setSp v := by intros; rfl

/-- `f` keeps PC and commutes with its update. -/
structure UntouchedPc (f : State → State) : Prop where
  pc : ∀ s, (f s).pc = s.pc := by intros; rfl
  setPc : ∀ s v, f (s.setPc v) = (f s).setPc v := by intros; rfl

theorem Untouched.get16 (hf : Untouched f) (p : Pair) (hsp : p = .sp → UntouchedSp f) (s : State) :
    (f s).get16 p = s.get16 p := by
  cases p with
  | bc => simp only [State.get16_bc, hf.getReg]
  | de => simp only [State.get16_de, hf.getReg]
  | hl => simp only [State.get16_hl, hf.getReg]
  | sp => exact (hsp rfl).sp s

theorem Untouched.set16 (hf : Untouched f) (p : Pair) (hsp : p = .sp → UntouchedSp f) (s : State) (v : Word) :
    f (s.set16 p v) = (f s).set16 p v := by
  cases p with
  | bc => simp only [State.set16_bc, hf.setReg]
  | de => simp only [State.set16_de, hf.setReg]
  | hl => simp only [State.set16_hl, hf.setReg]
  | sp => exact (hsp rfl).setSp s v

theorem Untouched.get16_hl (hf : Untouched f) (s : State) : (f s).get16 .hl = s.get16 .hl :=
  hf.get16 .hl nofun s

theorem Untouched.get16_indPair (hf : Untouched f) (p : IndPair) (s : State) :
    (f s).get16 (indPair p) = s.get16 (indPair p) :=
  hf.get16 _ (by cases p <;> nofun) s

theorem Untouched.incFlags (hf : Untouched f) (s : State) (v : Byte) : f (s.incFlags v) = (f s).incFlags v := by
  simp only [State.incFlags, hf.setFlags, hf.fC]

theorem Untouched.decFlags (hf : Untouched f) (s : State) (v : Byte) : f (s.decFlags v) = (f s).decFlags v := by
  simp only [State.decFlags, hf.setFlags, hf.fC]

theorem Untouched.addFlags (hf : Untouched f) (s : State) (x y : Word) : f (s.addFlags x y) = (f s).addFlags x y := by
  simp only [State.addFlags, hf.setFlags, hf.fZ]

/-- An update that touches neither cells, memory nor flags commutes with an instruction, if it also commutes with what HALT, the
SP forms and the unimplemented bytes do, where the instruction is one of these. -/
theorem Untouched.exec (hf : Untouched f) (i : Instr) (s : State) (hsp : usesSp i = true → UntouchedSp f)
    (hhalt : i = .halt → f (s.setHalted true) = (f s).setHalted true)
    (hemit : i.family = .unimplemented → ∀ b, f (s.emit b) = (f s).emit b) :
    exec i (f s) = onNext f (exec i s) := by
  induction i using instr_by_family with
  | nop => simp [hf.setRem]
  | halt => simp [hf.setRem, hhalt rfl]
  | ldPairImm p v =>
    have hp : p = .sp → UntouchedSp f := by rintro rfl; exact hsp rfl
    simp [loadPairImm_eq, hf.setRem, hf.set16 p hp]
  | ldSpAlias v => simp [loadPairImm_eq, hf.setRem, hf.set16 .sp (fun _ => hsp rfl)]
  | storeA p =>
    have ha : (f s).a = s.a := hf.getReg s .a
    simp [storeAThrough_eq, apply_ite (onNext f), hf.setRem, hf.write, hf.mem, hf.memSize, hf.get16_indPair, ha]
  | loadA p =>
    simp [loadAThrough_eq, apply_ite (onNext f), hf.setRem, hf.setReg, hf.mem, hf.memSize, hf.get16_indPair]
  | incPair p =>
    have hp : p = .sp → UntouchedSp f := by rintro rfl; exact hsp rfl
    simp [incPair_eq, hf.setRem, hf.get16 p hp, hf.set16 p hp]
  | decPair p =>
    have hp : p = .sp → UntouchedSp f := by rintro rfl; exact hsp rfl
    simp [decPair_eq, hf.setRem, hf.get16 p hp, hf.set16 p hp]
  | addHl p =>
    have hp : p = .sp → UntouchedSp f := by rintro rfl; exact hsp rfl
    simp [addHl_eq, hf.setRem, hf.get16 p hp, hf.get16_hl, hf.set16 .hl nofun, hf.addFlags]
  | inc8 k =>
    cases k with
    | reg r => simp [incSlot_reg_eq, hf.setRem, hf.setReg, hf.getReg, hf.incFlags]
    | indHl => simp [incSlot_indHl_eq, apply_ite (onNext f), hf.setRem, hf.incFlags, hf.write, hf.mem, hf.memSize, hf.get16_hl]
  | dec8 k =>
    cases k with
    | reg r => simp [decSlot_reg_eq, hf.setRem, hf.setReg, hf.getReg, hf.decFlags]
    | indHl => simp [decSlot_indHl_eq, apply_ite (onNext f), hf.setRem, hf.decFlags, hf.write, hf.mem, hf.memSize, hf.get16_hl]
  | ldImm8 k v =>
    cases k with
    | reg r => simp [loadSlotImm_reg_eq, hf.setRem, hf.setReg]
    | indHl => simp [loadSlotImm_indHl_eq, apply_ite (onNext f), hf.setRem, hf.write, hf.memSize, hf.mem, hf.get16_hl]
  | move8 dst src => simp [moveReg_eq, hf.setRem, hf.setReg, hf.getReg]
  | unimpl j hj => simp [exec_of_unimplemented j _ hj, unimplemented_eq, hemit hj]

theorem Untouched.fetch8 (hf : Untouched f) (hpc : UntouchedPc f) (s : State) :
    (f s).fetch8 = s.fetch8.map (Prod.map id f) := by
  by_cases h : s.pc.toNat < s.memSize
  · rw [State.fetch8_of_lt s h, State.fetch8_of_lt (f s) (by rwa [hpc.pc, hf.memSize]), hpc.pc, hf.mem, ← hpc.setPc]
    rfl
  · rw [State.fetch8_of_ge s h, State.fetch8_of_ge (f s) (by rwa [hpc.pc, hf.memSize]), hpc.pc]
    rfl

/-- An update that does not touch PC either commutes with the fetch of an instruction. -/
theorem Untouched.fetchInstr (hf : Untouched f) (hpc : UntouchedPc f) (s : State) :
    (f s).fetchInstr = s.fetchInstr.map (Prod.map id f) := by
  unfold State.fetchInstr
  rw [hf.fetch8 hpc]
  cases s.fetch8 with
  | error r => rfl
  | ok x =>
    obtain ⟨opc, s1⟩ := x
    simp only [bind, Except.bind, Except.map, Prod.map, id]
    cases opcodeForm opc with
    | plain i => rfl
    | imm8 k =>
      simp only [hf.fetch8 hpc]
      cases s1.fetch8 <;> rfl
    | imm16 k =>
      simp only [hf.fetch8 hpc]
      cases s1.fetch8 with
      | error r => rfl
      | ok y =>
        simp only [Except.map, Prod.map, hf.fetch8 hpc]
        cases y.2.fetch8 <;> rfl

end Sys2Proof.Machine
end

section
/-! PROOFS. The statements of 10_state.md on the halted flag, SP and the log. -/

namespace Sys2Proof.Machine

/-! ## The halted flag (R34) -/

theorem untouched_setHalted (v : Bool) : Untouched (·.setHalted v) := {}

theorem exec_setHalted (i : Instr) (s : State) (v : Bool) (hi : i ≠ .halt) :
    exec i (s.setHalted v) = onNext (·.setHalted v) (exec i s) :=
  (untouched_setHalted v).exec i s (fun _ => {}) (absurd · hi) (fun _ _ => rfl)

/-- Settles O21: setting the flag commutes with every instruction but HALT, and HALT overwrites it. -/
theorem haltedFlagUse : Obligations.HaltedFlagUse := by
  refine ⟨fun s => rfl, fun i s v => ?_, fun s hs => by simp [State.ended, hs]⟩
  by_cases hi : i = .halt
  · subst hi; simp only [exec_halt, onNext_next, decide_true, Bool.or_true]; rfl
  · simp [exec_setHalted i s v hi, hi]

/-! ## The stack pointer (R29) -/

theorem untouched_setSp (v : Word) : Untouched (·.setSp v) := {}

/-- The five forms of pair index 3. -/
theorem usesSp_cases (i : Instr) (h : usesSp i = true) :
    (∃ w, i = .ldSpD16 w) ∨ (∃ w, i = .ldSpD16Alias w) ∨ i = .incSp ∨ i = .decSp ∨ i = .addHlSp := by
  cases i
  case ldSpD16 w => exact .inl ⟨w, rfl⟩
  case ldSpD16Alias w => exact .inr (.inl ⟨w, rfl⟩)
  case incSp => simp
  case decSp => simp
  case addHlSp => simp
  all_goals cases h

theorem exec_setSp (i : Instr) (s : State) (v : Word) (hi : usesSp i = false) :
    exec i (s.setSp v) = onNext (·.setSp v) (exec i s) :=
  (untouched_setSp v).exec i s (by simp [hi]) (fun _ => rfl) (fun _ _ => rfl)

theorem addressPair_ne_sp (i : Instr) : addressPair i ≠ some .sp := by
  cases i <;> nofun

theorem dataAddress_setSp (i : Instr) (s : State) (v : Word) : dataAddress i (s.setSp v) = dataAddress i s := by
  unfold dataAddress
  cases hp : addressPair i with
  | none => rfl
  | some p =>
    have hne : p ≠ .sp := by rintro rfl; exact addressPair_ne_sp i hp
    exact congrArg some ((untouched_setSp v).get16 p (absurd · hne) s)

/-- Settles O25: setting SP commutes with every instruction but the five forms of pair index 3, and no
instruction addresses memory through that pair. -/
theorem spUsedByPairThreeOnly : Obligations.SpUsedByPairThreeOnly := by
  refine ⟨fun i s v hld halias hinc hdec hadd => exec_setSp i s v ?_, fun s t h => ?_, dataAddress_setSp⟩
  · by_contra hsp
    obtain ⟨w, hi⟩ | ⟨w, hi⟩ | hi | hi | hi := usesSp_cases i (by simpa using hsp)
    exacts [hld w hi, halias w hi, hinc hi, hdec hi, hadd hi]
  · cases h; rfl

/-! ## The log (R39) -/

/-- The state with another log. -/
def State.setLog (s : State) (l : List Diag) : State := { s with log := l }

theorem untouched_setLog (l : List Diag) : Untouched (·.setLog l) := {}

/-- No wired instruction reads or writes the log. -/
theorem exec_setLog (i : Instr) (s : State) (l : List Diag) (hi : i.family ≠ .unimplemented) :
    exec i (s.setLog l) = onNext (·.setLog l) (exec i s) :=
  (untouched_setLog l).exec i s (fun _ => {}) (fun _ => rfl) (absurd · hi)

/-- Up to the log an instruction does the same whatever the log is. -/
theorem exec_forgets_log (i : Instr) (s : State) (l : List Diag) :
    onNext (·.setLog []) (exec i (s.setLog l)) = onNext (·.setLog []) (exec i s) := by
  by_cases hi : i.family = .unimplemented
  · simp only [exec_of_unimplemented i _ hi, unimplemented_eq]; rfl
  · rw [exec_setLog i s l hi, onNext_onNext]; rfl

/-- An instruction keeps the events emitted so far and appends at most one. -/
theorem exec_next_log (i : Instr) (s t : State) (h : exec i s = .next t) :
    ∃ d, t.log = s.log ++ d ∧ d.length ≤ 1 := by
  by_cases hi : i.family = .unimplemented
  · rw [exec_of_unimplemented i s hi, unimplemented_eq] at h
    cases h
    exact ⟨_, State.log_emit .., by simp⟩
  · have hkeep := exec_setLog i s s.log hi
    have hself : s.setLog s.log = s := rfl
    rw [hself, h, onNext_next, Host.Outcome.next.injEq] at hkeep
    refine ⟨[], ?_, by simp⟩
    rw [hkeep]; simp [State.setLog]

theorem State.fetchInstr_setLog (s : State) (l : List Diag) :
    (s.setLog l).fetchInstr = s.fetchInstr.map (Prod.map id (·.setLog l)) :=
  (untouched_setLog l).fetchInstr {} s

theorem tick_forgets_log (s : State) (l : List Diag) :
    onNext (·.setLog []) (tick (s.setLog l)) = onNext (·.setLog []) (tick s) := by
  unfold tick
  by_cases hr : 0 < s.rem
  · rw [if_pos hr, if_pos (show 0 < (s.setLog l).rem from hr)]; rfl
  · rw [if_neg hr, if_neg (show ¬ 0 < (s.setLog l).rem from hr), State.fetchInstr_setLog]
    cases s.fetchInstr with
    | error r => rfl
    | ok x => exact exec_forgets_log x.1 x.2 l

/-- Up to the log a turn of the run loop does the same whatever the log is: the exit test does not read it either. -/
theorem step_forgets_log (s : State) (l : List Diag) :
    onNext (·.setLog []) (step (s.setLog l)) = onNext (·.setLog []) (step s) := by
  unfold step runLoopStep
  by_cases he : s.ended = true
  · rw [if_pos he, if_pos (show (s.setLog l).ended = true from he)]; rfl
  · rw [if_neg he, if_neg (show ¬ (s.setLog l).ended = true from he)]
    exact tick_forgets_log s l

/-- Settles O19: the log reaches neither the exit test, the fetch nor `exec`, and what a step appends `exec` appends. -/
theorem logIsOutputOnly : Obligations.LogIsOutputOnly := by
  refine ⟨step_forgets_log, fun s t h => ?_⟩
  obtain ⟨-, rfl⟩ | ⟨-, -, rfl⟩ | ⟨-, -, i, n, -, -, -, hexec⟩ := step_next_inv s t h
  · exact ⟨[], by simp⟩
  · exact ⟨[], by simp⟩
  · simpa using exec_next_log i _ t hexec

end Sys2Proof.Machine
end

section
/-! PROOFS. The statements of 10_state.md on the memory at the start, the slot accessors and the pair views. -/

namespace Sys2Proof.Machine

/-! ## Memory at construction, after clear() and after load (R40) -/

/-- What every address reads as after `load` from an address on. -/
theorem State.read_placeBytes (bytes : List Byte) (s : State) (addr x : Nat) :
    (s.placeBytes bytes addr).mem.read x =
      if addr ≤ x ∧ x < s.memSize then bytes[x - addr]?.getD (s.mem.read x) else s.mem.read x := by
  induction bytes generalizing s addr with
  | nil => simp [State.placeBytes]
  | cons v rest ih =>
    unfold State.placeBytes
    split
    · next hfit =>
      rw [ih]
      obtain hlt | rfl | hgt := Nat.lt_trichotomy x addr
      · simp [Memory.read_write_of_ne _ _ _ _ hlt.ne, hlt.not_ge, show ¬ addr + 1 ≤ x by omega]
      · simp [hfit]
      · obtain ⟨k, rfl⟩ := Nat.exists_eq_add_of_lt hgt
        simp [Memory.read_write_of_ne _ _ _ _ hgt.ne', show addr + k + 1 - (addr + 1) = k by omega,
          show addr + k + 1 - addr = k + 1 by omega, show addr + 1 ≤ addr + k + 1 by omega, hgt.le]
    · next hfull => rw [if_neg (by omega)]

theorem State.load_of_nonneg (s : State) (bytes : List Byte) (offset : Nat) :
    s.load bytes offset = .ok (s.placeBytes bytes offset) := by
  simp [State.load]

/-- Settles O12: an empty list of cells reads as blank, and what `load` leaves is `read_placeBytes`. -/
theorem memoryStartsZeroed : Obligations.MemoryStartsZeroed := by
  refine ⟨fun n i a => rfl, fun s a => rfl, fun s bytes offset k v hv hin => ⟨_, s.load_of_nonneg bytes offset, ?_⟩⟩
  rw [State.read_placeBytes, if_pos ⟨by omega, hin⟩]
  simp [hv]

/-! ## Slots (R22) -/

theorem State.memWrite_eq_ok (s t : State) (addr : Word) (v : Byte) :
    s.memWrite addr v = .ok t ↔ addr.toNat < s.memSize ∧ t = { s with mem := s.mem.write addr.toNat v } := by
  by_cases h : addr.toNat < s.memSize
  · simp [State.memWrite_of_lt s addr v h, h, eq_comm]
  · simp [State.memWrite_of_ge s addr v h, h]

theorem State.memRead_of_memWrite {s t : State} {addr : Word} {v : Byte} (h : s.memWrite addr v = .ok t) :
    t.memRead addr = .ok v := by
  obtain ⟨hin, rfl⟩ := (s.memWrite_eq_ok t addr v).mp h
  simp [State.memRead, hin]

theorem State.get16_of_memWrite {s t : State} {addr : Word} {v : Byte} (h : s.memWrite addr v = .ok t) (p : Pair) :
    t.get16 p = s.get16 p := by
  obtain ⟨-, rfl⟩ := (s.memWrite_eq_ok t addr v).mp h
  cases p <;> rfl

/-- For slot 6: the write leaves HL as it was, so the read is at the same address. -/
theorem State.get8_of_set8 (s t : State) (k : Slot) (v : Byte) (h : s.set8 k v = .ok t) : t.get8 k = .ok v := by
  cases k with
  | reg r => cases h; exact congrArg Except.ok (s.getReg_setReg_self r v)
  | indHl => rw [State.get8, State.get16_of_memWrite h]; exact State.memRead_of_memWrite h

/-- Settles O31: the accessors are by definition those of the cell or of the byte at HL; the read after a write is
`get8_of_set8`. -/
theorem slotAccessors : Obligations.SlotAccessors := fun s v =>
  ⟨fun _ => ⟨rfl, rfl⟩, rfl, rfl, fun k t => s.get8_of_set8 t k v⟩

/-! ## Pairs and cells (R26) -/

theorem hi8_toNat (v : Word) : (hi8 v).toNat = v.toNat / 256 := by
  simp [hi8, Nat.shiftRight_eq_div_pow]; omega

theorem lo8_toNat (v : Word) : (lo8 v).toNat = v.toNat % 256 := by
  simp [lo8]

/-- Settles O32: a pair's number is 256 times its high cell plus its low cell, and its cells are that number's quotient and
remainder by 256. -/
theorem pairAliasing : Obligations.PairAliasing := by
  intro s x v
  refine ⟨?_, ?_, fun r => ⟨s.sp_setReg r x, s.getReg_setSp v r⟩⟩
  · exact ⟨compose16_toNat .., compose16_toNat .., compose16_toNat .., compose16_toNat .., compose16_toNat ..,
      compose16_toNat ..⟩
  · have hcells : ((hi8 v).toNat, (lo8 v).toNat) = (v.toNat / 256, v.toNat % 256) := by rw [hi8_toNat, lo8_toNat]
    exact ⟨hcells, hcells, hcells⟩

end Sys2Proof.Machine
end

section
/-! PROOFS. The statements of 30_encoding.md on the length of an instruction. -/

namespace Sys2Proof

/-- What a successful decode read: the form, the immediate bytes it takes, and the bytes it left (30_encoding.md R85, R86). -/
theorem Form.complete_eq_ok (f : Form) (tail : List Byte) (i : Instr) (rest : List Byte) :
    f.complete tail = .ok (i, rest) ↔
      (f = .plain i ∧ tail = rest) ∨
      (∃ k v, f = .imm8 k ∧ k v = i ∧ tail = v :: rest) ∨
      (∃ k lo hi, f = .imm16 k ∧ k (compose16 hi lo) = i ∧ tail = lo :: hi :: rest) := by
  fun_cases Form.complete f tail <;> simp [*]

theorem Form.length_of_complete {f : Form} {tail : List Byte} {i : Instr} {rest : List Byte}
    (h : f.complete tail = .ok (i, rest)) : tail.length + 1 = f.length + rest.length := by
  obtain ⟨rfl, rfl⟩ | ⟨k, v, rfl, -, rfl⟩ | ⟨k, lo, hi, rfl, -, rfl⟩ := (f.complete_eq_ok tail i rest).mp h
  · simp only [Form.length]; omega
  · simp only [Form.length, List.length_cons]; omega
  · simp only [Form.length, List.length_cons]; omega

/-- Whichever form an opcode byte selects, every instruction decoded through it belongs to a family of the form's length. -/
theorem opcodeForm_length_of_complete {opc : Byte} {tail : List Byte} {i : Instr} {rest : List Byte}
    (h : (opcodeForm opc).complete tail = .ok (i, rest)) : (opcodeForm opc).length = i.family.length := by
  have hfam := opcodeForm_family_length opc
  obtain ⟨hf, -⟩ | ⟨k, v, hf, rfl, -⟩ | ⟨k, lo, hi, hf, rfl, -⟩ := ((opcodeForm opc).complete_eq_ok tail i rest).mp h
  · rw [hf] at hfam ⊢; exact hfam.symm
  · rw [hf] at hfam ⊢; exact (hfam v).symm
  · rw [hf] at hfam ⊢; exact (hfam _).symm

theorem Family.length_eq_ite (f : Family) :
    f.length = if f = .ldPairImm ∨ f = .ldSpAlias then 3 else if f = .ldImm8 then 2 else 1 := by
  cases f <;> rfl

/-- Settles O4: the form alone fixes how many bytes are read, and its length is that of the instruction's family. -/
theorem instructionLength : Obligations.InstructionLength := fun _ _ i _ h =>
  ⟨Form.length_of_complete h, (opcodeForm_length_of_complete h).trans i.family.length_eq_ite⟩

end Sys2Proof
end

section
/-! PROOFS. The statements of 40_nop_halt.md. -/

namespace Sys2Proof.Machine

/-! ## A turn of the run loop that fetches (R234) -/

theorem State.ended_eq_false_iff (s : State) : s.ended = false ↔ s.halted = false ∧ s.pc.toNat < s.memSize := by
  simp [State.ended]

/-- A one-byte instruction is fetched with its opcode byte alone. -/
theorem State.fetchInstr_of_plain {s : State} {i : Instr} (hin : s.pc.toNat < s.memSize)
    (hform : opcodeForm (s.mem.read s.pc.toNat) = .plain i) : s.fetchInstr = .ok (i, s.setPc (s.pc + 1)) := by
  unfold State.fetchInstr
  rw [s.fetch8_of_lt hin]
  simp only [bind, Except.bind, hform]
  rfl

/-- With the run going on and no latency left, a step is `exec` of what the fetch answers. -/
theorem step_of_fetchInstr {s t : State} {i : Instr} (hrun : s.ended = false) (hrem : s.rem = 0)
    (hfetch : s.fetchInstr = .ok (i, t)) : step s = exec i t := by
  simp [step, runLoopStep, tick, hrun, hrem, hfetch]

/-! ## NOP (R110) -/

theorem opcodeForm_nop : opcodeForm 0x00 = .plain .nop := rfl

/-- Settles O43: the fetch of byte 00 moves PC past it, and `exec` then only stores the `rem` that is 0 already. -/
theorem nopOnlyAdvances : Obligations.NopOnlyAdvances := by
  refine ⟨rfl, exec_nop, fun s hrun hrem hbyte => ?_⟩
  have hin : s.pc.toNat < s.memSize := (s.ended_eq_false_iff.mp hrun).2
  have hform : opcodeForm (s.mem.read s.pc.toNat) = .plain .nop := by rw [hbyte, opcodeForm_nop]
  have hkeep : (s.setPc (s.pc + 1)).setRem 0 = { s with pc := s.pc + 1 } := by rw [← hrem]; rfl
  rw [step_of_fetchInstr hrun hrem (State.fetchInstr_of_plain hin hform), exec_nop, hkeep]

/-! ## HALT (R111) -/

theorem State.ended_of_halted {s : State} (h : s.halted = true) : s.ended = true := by
  simp [State.ended, h]

/-- Settles O44: HALT sets the flag by `exec_halt`, the exit test reads it, and entering a run clears that flag alone. -/
theorem haltStopsTheRun : Obligations.HaltStopsTheRun := by
  refine ⟨rfl, by decide, fun s => ⟨(s.setHalted true).setRem 0, exec_halt s, rfl, ?_, rfl⟩⟩
  exact State.ended_of_halted (by simp)

end Sys2Proof.Machine
end

section
/-! PROOFS. The statements of 41_load16.md. -/

namespace Sys2Proof.Machine

/-! ## The bytes of a 16-bit immediate load (R82, R86) -/

/-- The immediate's low byte comes first (R86). -/
theorem withD16_compose16 (opc lo hi : Byte) : withD16 opc (compose16 hi lo) = [opc, lo, hi] := by
  rw [withD16, lo8_compose16, hi8_compose16]

theorem encode_ldPairImmOf (p : Pair) (v : Word) : encode (ldPairImmOf p v) = withD16 (formatP p 0b0001#4) v := by
  cases p <;> rfl

theorem encode_ldSpAlias (v : Word) : encode (.ldSpD16Alias v) = withD16 0x08 v := rfl

/-! ## LD rr,d16 and the alias byte 08 (R120 to R124) -/

/-- All four pairs at once: the three bytes of the load, and the pair written with rem 2 by `exec`. -/
theorem encode_exec_ldPairImmOf (p : Pair) (lo hi : Byte) (s : State) :
    encode (ldPairImmOf p (compose16 hi lo)) = [formatP p 0b0001#4, lo, hi] ∧
      exec (ldPairImmOf p (compose16 hi lo)) s = .next ((s.set16 p (compose16 hi lo)).setRem 2) := by
  rw [encode_ldPairImmOf, withD16_compose16, exec_ldPairImmOf, loadPairImm_eq]
  exact ⟨rfl, rfl⟩

/-- Settles O45: each load writes its pair, the alias byte SP as 31 does, and the two bytes land in the pair's cells. -/
theorem loadPairImmediate : Obligations.LoadPairImmediate := by
  intro lo hi s
  have hbc := encode_exec_ldPairImmOf .bc lo hi s
  have hde := encode_exec_ldPairImmOf .de lo hi s
  have hhl := encode_exec_ldPairImmOf .hl lo hi s
  have hsp := encode_exec_ldPairImmOf .sp lo hi s
  rw [State.set16_bc, hi8_compose16, lo8_compose16] at hbc
  rw [State.set16_de, hi8_compose16, lo8_compose16] at hde
  rw [State.set16_hl, hi8_compose16, lo8_compose16] at hhl
  have halias : encode (.ldSpD16Alias (compose16 hi lo)) = [0x08, lo, hi] := by
    rw [encode_ldSpAlias, withD16_compose16]
  have haliasExec : exec (.ldSpD16Alias (compose16 hi lo)) s = .next ((s.setSp (compose16 hi lo)).setRem 2) := by
    rw [exec_ldSpAlias, loadPairImm_eq]
    rfl
  exact ⟨hbc, hde, hhl, hsp, ⟨halias, haliasExec⟩, compose16_toNat hi lo⟩

end Sys2Proof.Machine
end

section
/-! PROOFS. The statements of 42_load_indirect_a.md: the accumulator stores and loads, and which instructions access data
memory. -/

namespace Sys2Proof.Machine

/-! ## LD (rr),A and LD A,(rr) (R130 to R133) -/

/-- Both stores at once: A is written inside the buffer, and the store faults outside it. -/
theorem exec_storeAOf_spec (p : IndPair) (s : State) :
    ((s.get16 (indPair p)).toNat < s.memSize → ∃ t, exec (storeAOf p) s = .next t ∧
      t = { s with mem := t.mem, rem := 1 } ∧
      ∀ a, t.mem.read a = if a = (s.get16 (indPair p)).toNat then s.a else s.mem.read a) ∧
    (s.memSize ≤ (s.get16 (indPair p)).toNat →
      exec (storeAOf p) s = .fault (.memOutOfRange (s.get16 (indPair p)))) := by
  rw [exec_storeAOf, storeAThrough_eq]
  refine ⟨fun hin => ?_, fun hout => if_neg hout.not_gt⟩
  rw [if_pos hin]
  exact ⟨_, rfl, rfl, fun a => s.mem.read_write _ a s.a⟩

/-- Both loads at once: A is the byte read inside the buffer, and the load faults outside it. -/
theorem exec_loadAOf_spec (p : IndPair) (s : State) :
    ((s.get16 (indPair p)).toNat < s.memSize →
      exec (loadAOf p) s = .next { s with a := s.mem.read (s.get16 (indPair p)).toNat, rem := 1 }) ∧
    (s.memSize ≤ (s.get16 (indPair p)).toNat →
      exec (loadAOf p) s = .fault (.memOutOfRange (s.get16 (indPair p)))) := by
  rw [exec_loadAOf, loadAThrough_eq]
  exact ⟨fun hin => if_pos hin, fun hout => if_neg hout.not_gt⟩

/-- Settles O46: the two instructions are `storeAOf` at the two pairs. -/
theorem storeAccumulator : Obligations.StoreAccumulator := by
  refine ⟨rfl, rfl, fun i p s hmem => ?_⟩
  obtain ⟨rfl, rfl⟩ | ⟨rfl, rfl⟩ : (i = .ldIndBcA ∧ p = .bc) ∨ (i = .ldIndDeA ∧ p = .de) := by simpa using hmem
  · exact exec_storeAOf_spec .bc s
  · exact exec_storeAOf_spec .de s

/-- Settles O47: the two instructions are `loadAOf` at the two pairs. -/
theorem loadAccumulator : Obligations.LoadAccumulator := by
  refine ⟨rfl, rfl, fun i p s hmem => ?_⟩
  obtain ⟨rfl, rfl⟩ | ⟨rfl, rfl⟩ : (i = .ldAIndBc ∧ p = .bc) ∨ (i = .ldAIndDe ∧ p = .de) := by simpa using hmem
  · exact exec_loadAOf_spec .bc s
  · exact exec_loadAOf_spec .de s

/-! ## The state with another buffer -/

/-- The state with another buffer. -/
def State.setMem (s : State) (m : Memory) : State := { s with mem := m }

@[simp] theorem State.mem_setMem (s : State) (m : Memory) : (s.setMem m).mem = m := rfl

@[simp] theorem State.getReg_setMem (s : State) (m : Memory) (r : Reg8) : (s.setMem m).getReg r = s.getReg r := by
  cases r <;> rfl

@[simp] theorem State.get16_setMem (s : State) (m : Memory) (p : Pair) : (s.setMem m).get16 p = s.get16 p := by
  cases p <;> rfl

@[simp] theorem State.setReg_setMem (s : State) (m : Memory) (r : Reg8) (v : Byte) :
    (s.setMem m).setReg r v = (s.setReg r v).setMem m := by
  cases r <;> rfl

@[simp] theorem State.set16_setMem (s : State) (m : Memory) (p : Pair) (v : Word) :
    (s.setMem m).set16 p v = (s.set16 p v).setMem m := by
  cases p <;> rfl

@[simp] theorem State.setRem_setMem (s : State) (m : Memory) (n : Nat) :
    (s.setMem m).setRem n = (s.setRem n).setMem m := rfl

@[simp] theorem State.setHalted_setMem (s : State) (m : Memory) (v : Bool) :
    (s.setMem m).setHalted v = (s.setHalted v).setMem m := rfl

@[simp] theorem State.emit_setMem (s : State) (m : Memory) (b : Byte) :
    (s.setMem m).emit b = (s.emit b).setMem m := rfl

@[simp] theorem State.incFlags_setMem (s : State) (m : Memory) (v : Byte) :
    (s.setMem m).incFlags v = (s.incFlags v).setMem m := rfl

@[simp] theorem State.decFlags_setMem (s : State) (m : Memory) (v : Byte) :
    (s.setMem m).decFlags v = (s.decFlags v).setMem m := rfl

@[simp] theorem State.addFlags_setMem (s : State) (m : Memory) (x y : Word) :
    (s.setMem m).addFlags x y = (s.addFlags x y).setMem m := rfl

/-! ## Which instructions access data memory (R134) -/

/-- The seven forms that access data memory, by the pair they address through. -/
theorem addressPair_eq_some (i : Instr) (p : Pair) (h : addressPair i = some p) :
    (∃ q, i = storeAOf q ∧ p = indPair q) ∨ (∃ q, i = loadAOf q ∧ p = indPair q) ∨
      p = .hl ∧ (i = inc8Of .indHl ∨ i = dec8Of .indHl ∨ ∃ v, i = ldImm8Of .indHl v) := by
  cases i
  case ldIndBcA => cases h; exact .inl ⟨.bc, rfl, rfl⟩
  case ldIndDeA => cases h; exact .inl ⟨.de, rfl, rfl⟩
  case ldAIndBc => cases h; exact .inr (.inl ⟨.bc, rfl, rfl⟩)
  case ldAIndDe => cases h; exact .inr (.inl ⟨.de, rfl, rfl⟩)
  case incIndHl => cases h; exact .inr (.inr ⟨rfl, .inl rfl⟩)
  case decIndHl => cases h; exact .inr (.inr ⟨rfl, .inr (.inl rfl)⟩)
  case ldIndHlD8 v => cases h; exact .inr (.inr ⟨rfl, .inr (.inr ⟨v, rfl⟩)⟩)
  all_goals cases h

/-- An instruction without a data address does the same whatever the memory holds, and leaves it as it was. -/
theorem exec_setMem (i : Instr) (s : State) (m : Memory) (hi : addressPair i = none) :
    exec i (s.setMem m) = onNext (·.setMem m) (exec i s) := by
  induction i using instr_by_family with
  | nop => simp
  | halt => simp
  | ldPairImm p v => simp [loadPairImm_eq]
  | ldSpAlias v => simp [loadPairImm_eq]
  | storeA p => cases p <;> cases hi
  | loadA p => cases p <;> cases hi
  | incPair p => simp [incPair_eq]
  | decPair p => simp [decPair_eq]
  | addHl p => simp [addHl_eq]
  | inc8 k =>
    cases k with
    | reg r => simp [incSlot_reg_eq]
    | indHl => cases hi
  | dec8 k =>
    cases k with
    | reg r => simp [decSlot_reg_eq]
    | indHl => cases hi
  | ldImm8 k v =>
    cases k with
    | reg r => simp [loadSlotImm_reg_eq]
    | indHl => cases hi
  | move8 dst src => simp [moveReg_eq]
  | unimpl j hj => simp [exec_of_unimplemented j _ hj, unimplemented_eq]

/-- An instruction that stores no byte keeps the memory. -/
theorem exec_next_mem_of_not_stores {i : Instr} {s t : State} (hi : storedByte i s = none) (h : exec i s = .next t) :
    t.mem = s.mem := by
  cases hp : addressPair i with
  | none =>
    have hkeep := exec_setMem i s s.mem hp
    have hself : s.setMem s.mem = s := rfl
    rw [hself, h, onNext_next, Host.Outcome.next.injEq] at hkeep
    rw [hkeep, State.mem_setMem]
  | some p =>
    obtain ⟨q, rfl, -⟩ | ⟨q, rfl, -⟩ | ⟨-, rfl | rfl | ⟨v, rfl⟩⟩ := addressPair_eq_some i p hp
    · cases q <;> cases hi
    · rw [exec_loadAOf, loadAThrough_eq] at h
      split at h <;> cases h
      rfl
    all_goals cases hi

/-- An instruction that stores a byte writes it at its data address, and keeps every cell. -/
theorem exec_next_of_stores {i : Instr} {s t : State} {p : Pair} {v : Byte} (hp : addressPair i = some p)
    (hv : storedByte i s = some v) (h : exec i s = .next t) :
    t.mem = s.mem.write (s.get16 p).toNat v ∧ ∀ r, t.getReg r = s.getReg r := by
  obtain ⟨q, rfl, rfl⟩ | ⟨q, rfl, -⟩ | ⟨rfl, rfl | rfl | ⟨w, rfl⟩⟩ := addressPair_eq_some i p hp
  · rw [exec_storeAOf, storeAThrough_eq] at h
    split at h <;> cases h
    obtain rfl : s.a = v := by cases q <;> exact Option.some.inj hv
    exact ⟨rfl, fun r => by cases r <;> rfl⟩
  · cases q <;> cases hv
  · rw [exec_inc8Of, incSlot_indHl_eq] at h
    split at h <;> cases h
    cases hv
    exact ⟨rfl, fun r => by cases r <;> rfl⟩
  · rw [exec_dec8Of, decSlot_indHl_eq] at h
    split at h <;> cases h
    cases hv
    exact ⟨rfl, fun r => by cases r <;> rfl⟩
  · rw [exec_ldImm8Of, loadSlotImm_indHl_eq] at h
    split at h <;> cases h
    cases hv
    exact ⟨rfl, fun r => by cases r <;> rfl⟩

/-- Of the forms with a data address, all but the two loads store a byte there. -/
theorem exists_storedByte {i : Instr} {p : Pair} (hp : addressPair i = some p) (hbc : i ≠ .ldAIndBc)
    (hde : i ≠ .ldAIndDe) (s : State) : ∃ v, storedByte i s = some v := by
  obtain ⟨q, rfl, -⟩ | ⟨q, rfl, -⟩ | ⟨-, rfl | rfl | ⟨v, rfl⟩⟩ := addressPair_eq_some i p hp
  · cases q <;> exact ⟨_, rfl⟩
  · cases q
    · exact absurd rfl hbc
    · exact absurd rfl hde
  all_goals exact ⟨_, rfl⟩

/-- The cells after an instruction other than the two loads do not depend on the memory: without a data address it does not
see the memory, and a store keeps every cell. -/
theorem exec_getReg_of_setMem {i : Instr} {s t u : State} {m : Memory} (hbc : i ≠ .ldAIndBc) (hde : i ≠ .ldAIndDe)
    (ht : exec i s = .next t) (hu : exec i (s.setMem m) = .next u) (r : Reg8) : u.getReg r = t.getReg r := by
  cases hp : addressPair i with
  | none =>
    rw [exec_setMem i s m hp, ht, onNext_next, Host.Outcome.next.injEq] at hu
    rw [← hu, State.getReg_setMem]
  | some p =>
    obtain ⟨v, hv⟩ := exists_storedByte hp hbc hde s
    obtain ⟨w, hw⟩ := exists_storedByte hp hbc hde (s.setMem m)
    rw [(exec_next_of_stores hp hv ht).2, (exec_next_of_stores hp hw hu).2, State.getReg_setMem]

/-- No pair contains A. -/
theorem State.get16_setReg_a (s : State) (v : Byte) (p : Pair) : (s.setReg .a v).get16 p = s.get16 p := by
  cases p <;> rfl

/-- Only the two stores of A store a byte that depends on A. -/
theorem storedByte_setReg_a {i : Instr} (s : State) (v : Byte) (hbc : i ≠ .ldIndBcA) (hde : i ≠ .ldIndDeA) :
    storedByte i (s.setReg .a v) = storedByte i s := by
  cases i
  case ldIndBcA => exact absurd rfl hbc
  case ldIndDeA => exact absurd rfl hde
  all_goals rfl

/-- A form that stores a byte has a data address. -/
theorem exists_addressPair {i : Instr} {s : State} {v : Byte} (hv : storedByte i s = some v) :
    ∃ p, addressPair i = some p := by
  cases i
  case ldIndBcA | ldIndDeA | incIndHl | decIndHl | ldIndHlD8 => exact ⟨_, rfl⟩
  all_goals cases hv

/-- The memory after an instruction other than the two stores of A does not depend on A: neither the byte it stores nor the
address does. -/
theorem exec_mem_of_setReg_a {i : Instr} {s t u : State} {a : Byte} (hbc : i ≠ .ldIndBcA) (hde : i ≠ .ldIndDeA)
    (ht : exec i s = .next t) (hu : exec i (s.setReg .a a) = .next u) : u.mem = t.mem := by
  have hsame := storedByte_setReg_a s a hbc hde
  cases hv : storedByte i s with
  | none =>
    rw [exec_next_mem_of_not_stores hv ht, exec_next_mem_of_not_stores (hsame.trans hv) hu, State.mem_setReg]
  | some v =>
    obtain ⟨p, hp⟩ := exists_addressPair hv
    rw [(exec_next_of_stores hp hv ht).1, (exec_next_of_stores hp (hsame.trans hv) hu).1, State.mem_setReg,
      State.get16_setReg_a]

/-- Settles O26: the seven named forms are exactly those with a data address, and of them only the loads read memory into a
cell and only the stores put A there. -/
theorem dataMemoryUsers : Obligations.DataMemoryUsers := by
  refine ⟨fun i s m hstBc hstDe hldBc hldDe hinc hdec himm => exec_setMem i s m ?_,
    fun i s t u m hldBc hldDe ht hu => exec_getReg_of_setMem hldBc hldDe ht hu,
    fun i s t u v hstBc hstDe ht hu => exec_mem_of_setReg_a hstBc hstDe ht hu⟩
  by_contra hne
  obtain ⟨p, hp⟩ := Option.ne_none_iff_exists'.mp hne
  obtain ⟨q, hi, -⟩ | ⟨q, hi, -⟩ | ⟨-, hi | hi | ⟨v, hi⟩⟩ := addressPair_eq_some i p hp
  · cases q
    exacts [hstBc hi, hstDe hi]
  · cases q
    exacts [hldBc hi, hldDe hi]
  exacts [hinc hi, hdec hi, himm v hi]

end Sys2Proof.Machine
end

section
/-! PROOFS. The statements of 43_arith16.md: INC rr, DEC rr and ADD HL,rr. -/

namespace Sys2Proof.Machine

/-! ## A pair written by a handler of cost 2 -/

theorem State.get16_set16_setRem (s : State) (p : Pair) (v : Word) (n : Nat) :
    ((s.set16 p v).setRem n).get16 p = v := by
  rw [State.get16_setRem, State.get16_set16_self]

/-- What INC rr and DEC rr have in common: the answer is a state whose pair is `v` as a number, and nothing but the pair and
`rem` differs. -/
theorem exists_next_set16_setRem {i : Instr} {s : State} {p : Pair} {v : Word} {n : Nat}
    (hexec : exec i s = .next ((s.set16 p v).setRem 1)) (hv : v.toNat = n) :
    ∃ t, exec i s = .next t ∧ (t.get16 p).toNat = n ∧ t = { s.set16 p (t.get16 p) with rem := 1 } := by
  refine ⟨_, hexec, ?_, ?_⟩
  · rw [State.get16_set16_setRem, hv]
  · rw [State.get16_set16_setRem]
    rfl

/-! ## INC rr and DEC rr (R140 to R147) -/

theorem toNat_add_one_word (v : Word) : (v + 1).toNat = (v.toNat + 1) % 65536 :=
  BitVec.toNat_add v 1

theorem toNat_sub_one_word (v : Word) : (v - 1).toNat = (v.toNat + 65535) % 65536 := by
  rw [Nat.add_comm]
  exact BitVec.toNat_sub v 1

/-- Settles O48: all four forms write the pair plus one. -/
theorem incrementPair : Obligations.IncrementPair := by
  refine ⟨rfl, fun p s => exists_next_set16_setRem ?_ (toNat_add_one_word (s.get16 p))⟩
  rw [exec_incPairOf, incPair_eq]

/-- Settles O49: all four forms write the pair minus one, which is plus 65535 modulo 65536. -/
theorem decrementPair : Obligations.DecrementPair := by
  refine ⟨rfl, fun p s => exists_next_set16_setRem ?_ (toNat_sub_one_word (s.get16 p))⟩
  rw [exec_decPairOf, decPair_eq]

/-! ## ADD HL,rr (R148 to R151) -/

theorem addSum_toNat (x y : Word) : (addSum x y).toNat = (x.toNat + y.toNat) % 65536 :=
  BitVec.toNat_ofNat _ 16

theorem addHalf_eq_true_iff (x y : Word) : addHalf x y = true ↔ x.toNat % 4096 + y.toNat % 4096 > 4095 :=
  decide_eq_true_iff

theorem addCarry_eq_true_iff (x y : Word) : addCarry x y = true ↔ x.toNat + y.toNat > 65535 :=
  decide_eq_true_iff

/-- Doubling the low 12 bits overflows them exactly when bit 11 is set. -/
theorem addHalf_self (x : Word) : addHalf x x = x.getLsbD 11 := by
  rw [addHalf, BitVec.getLsbD, Nat.testBit_eq_decide_div_mod_eq, decide_eq_decide]
  omega

/-- Doubling a word overflows it exactly when bit 15 is set. -/
theorem addCarry_self (x : Word) : addCarry x x = x.getLsbD 15 := by
  have hx : x.toNat < 65536 := x.isLt
  rw [addCarry, BitVec.getLsbD, Nat.testBit_eq_decide_div_mod_eq, decide_eq_decide]
  omega

/-- Settles O50: `addHl_eq` gives the sum and the flags, and for ADD HL,HL each carry out of a doubling is a bit of HL. -/
theorem addPairToHl : Obligations.AddPairToHl := by
  refine ⟨rfl, fun p s => ?_, fun s t h => ?_⟩
  · refine ⟨_, (exec_addHlOf p s).trans (addHl_eq p s), ?_, rfl, addHalf_eq_true_iff _ _, addCarry_eq_true_iff _ _, ?_⟩
    · rw [State.get16_set16_setRem, addSum_toNat]
    · rw [State.get16_set16_setRem]
      rfl
  · have hexec : exec .addHlHl s = _ := (exec_addHlOf .hl s).trans (addHl_eq .hl s)
    rw [hexec] at h
    cases h
    exact ⟨addHalf_self (s.get16 .hl), addCarry_self (s.get16 .hl)⟩

end Sys2Proof.Machine
end

section
/-! PROOFS. The statements of 44_incdec8_ldimm8.md: INC r, DEC r and LD r,d8, for the seven cells and for the byte at HL. -/

namespace Sys2Proof.Machine

/-! ## The byte arithmetic and the flags of INC and DEC -/

theorem toNat_add_one_byte (v : Byte) : (v + 1).toNat = (v.toNat + 1) % 256 :=
  BitVec.toNat_add v 1

theorem toNat_sub_one_byte (v : Byte) : (v - 1).toNat = (v.toNat + 255) % 256 := by
  rw [Nat.add_comm]
  exact BitVec.toNat_sub v 1

theorem add_one_byte_eq_zero_iff (v : Byte) : v + 1 = 0 ↔ v = 0xFF :=
  add_eq_zero_iff_eq_neg

theorem sub_one_byte_eq_zero_iff (v : Byte) : v - 1 = 0 ↔ v = 0x01 :=
  sub_eq_zero

theorem zeroOf_eq_true_iff (v : Byte) : zeroOf v = true ↔ v = 0 :=
  decide_eq_true_iff

theorem incHalf_eq_true_iff (v : Byte) : incHalf v = true ↔ v.toNat % 16 = 15 :=
  decide_eq_true_iff

theorem decHalf_eq_true_iff (v : Byte) : decHalf v = true ↔ v.toNat % 16 = 0 :=
  decide_eq_true_iff

/-! ## INC r and DEC r on a cell (R160, R162) -/

/-- What INC r and DEC r have in common: the answer is a state whose cell is `v` as a number, with Zero that of `v`, and
nothing but the cell, the three flags and `rem` differs. -/
theorem exists_next_setReg_setFlags {i : Instr} {s : State} {r : Reg8} {v : Byte} {sub half : Bool} {n : Nat}
    {Half ToZero : Prop}
    (hexec : exec i s = .next (((s.setReg r v).setFlags (zeroOf v) sub half (s.setReg r v).fC).setRem 0))
    (hv : v.toNat = n) (hhalf : half = true ↔ Half) (hzero : v = 0 ↔ ToZero) :
    ∃ t, exec i s = .next t ∧ (t.getReg r).toNat = n ∧ t.fN = sub ∧ (t.fH = true ↔ Half) ∧
      (t.fZ = true ↔ t.getReg r = 0) ∧ (t.fZ = true ↔ ToZero) ∧
      t = { s.setReg r (t.getReg r) with fZ := t.fZ, fN := t.fN, fH := t.fH, rem := 0 } := by
  have hcell : (((s.setReg r v).setFlags (zeroOf v) sub half (s.setReg r v).fC).setRem 0).getReg r = v := by simp
  refine ⟨_, hexec, ?_, rfl, hhalf, ?_, (zeroOf_eq_true_iff v).trans hzero, ?_⟩
  · rw [hcell, hv]
  · rw [hcell]
    exact zeroOf_eq_true_iff v
  · rw [hcell]
    rfl

/-- Settles O51: all seven forms write the cell plus one, and HalfCarry is the old value's carry out of bit 3. -/
theorem incrementRegister : Obligations.IncrementRegister :=
  ⟨rfl, fun r s => exists_next_setReg_setFlags ((exec_inc8Of (.reg r) s).trans (incSlot_reg_eq r s))
    (toNat_add_one_byte _) (incHalf_eq_true_iff _) (add_one_byte_eq_zero_iff _)⟩

/-- Settles O53: all seven forms write the cell minus one, which is plus 255 modulo 256. -/
theorem decrementRegister : Obligations.DecrementRegister :=
  ⟨rfl, fun r s => exists_next_setReg_setFlags ((exec_dec8Of (.reg r) s).trans (decSlot_reg_eq r s))
    (toNat_sub_one_byte _) (decHalf_eq_true_iff _) (sub_one_byte_eq_zero_iff _)⟩

/-! ## INC (HL) and DEC (HL) (R161, R163) -/

/-- What INC (HL) and DEC (HL) have in common: inside the buffer the byte at HL is `v` as a number, with Zero that of `v`, and
nothing but that byte, the three flags and `rem` differs; outside it the access faults. -/
theorem exec_writeAtHl_setFlags_spec {i : Instr} {s : State} {v : Byte} {sub half : Bool} {n : Nat} {Half : Prop}
    (hexec : exec i s =
      if (s.get16 .hl).toNat < s.memSize then
        .next (((s.setMem (s.mem.write (s.get16 .hl).toNat v)).setFlags (zeroOf v) sub half s.fC).setRem 0)
      else .fault (.memOutOfRange (s.get16 .hl)))
    (hv : v.toNat = n) (hhalf : half = true ↔ Half) :
    ((s.get16 .hl).toNat < s.memSize → ∃ t, exec i s = .next t ∧
      (t.mem.read (s.get16 .hl).toNat).toNat = n ∧
      (∀ a, a ≠ (s.get16 .hl).toNat → t.mem.read a = s.mem.read a) ∧ t.fN = sub ∧
      (t.fH = true ↔ Half) ∧ (t.fZ = true ↔ t.mem.read (s.get16 .hl).toNat = 0) ∧
      t = { s with mem := t.mem, fZ := t.fZ, fN := t.fN, fH := t.fH, rem := 0 }) ∧
    (s.memSize ≤ (s.get16 .hl).toNat → exec i s = .fault (.memOutOfRange (s.get16 .hl))) := by
  refine ⟨fun hin => ?_, fun hout => hexec.trans (if_neg hout.not_gt)⟩
  have hread : (s.mem.write (s.get16 .hl).toNat v).read (s.get16 .hl).toNat = v := s.mem.read_write_self _ v
  refine ⟨_, hexec.trans (if_pos hin), ?_, fun a ha => s.mem.read_write_of_ne _ a v ha, rfl, hhalf, ?_, rfl⟩
  · exact (congrArg BitVec.toNat hread).trans hv
  · exact (zeroOf_eq_true_iff v).trans (Eq.congr_left hread.symm)

/-- Settles O52: `incSlot_indHl_eq` gives the byte written and the flags. -/
theorem incrementMemoryByte : Obligations.IncrementMemoryByte := by
  refine ⟨rfl, fun s old hold => ?_⟩
  subst hold
  exact exec_writeAtHl_setFlags_spec ((exec_inc8Of .indHl s).trans (incSlot_indHl_eq s))
    (toNat_add_one_byte _) (incHalf_eq_true_iff _)

/-- Settles O54: `decSlot_indHl_eq` gives the byte written and the flags. -/
theorem decrementMemoryByte : Obligations.DecrementMemoryByte := by
  refine ⟨rfl, fun s old hold => ?_⟩
  subst hold
  exact exec_writeAtHl_setFlags_spec ((exec_dec8Of .indHl s).trans (decSlot_indHl_eq s))
    (toNat_sub_one_byte _) (decHalf_eq_true_iff _)

/-! ## LD r,d8 and LD (HL),d8 (R164, R165) -/

/-- A write of a cell changes none of the fields that are not cells. -/
theorem State.setReg_eq_with_cells (s : State) (r : Reg8) (v : Byte) :
    s.setReg r v =
      { s with
        b := (s.setReg r v).b, c := (s.setReg r v).c, d := (s.setReg r v).d, e := (s.setReg r v).e,
        h := (s.setReg r v).h, l := (s.setReg r v).l, a := (s.setReg r v).a } := by
  cases r <;> rfl

/-- Settles O55: `loadSlotImm_reg_eq` writes the one cell and sets rem to 1. -/
theorem loadRegisterImmediate : Obligations.LoadRegisterImmediate := by
  refine ⟨fun v => rfl, fun r v s => ⟨_, (exec_ldImm8Of (.reg r) v s).trans (loadSlotImm_reg_eq r v s), ?_, ?_, ?_⟩⟩
  · rw [State.getReg_setRem, State.getReg_setReg_self]
  · intro q hq
    rw [State.getReg_setRem, State.getReg_setReg, if_neg hq]
  · exact congrArg (·.setRem 1) (s.setReg_eq_with_cells r v)

/-- Settles O56: the immediate is written inside the buffer, and the store faults outside it. -/
theorem storeImmediateAtHl : Obligations.StoreImmediateAtHl := by
  refine ⟨fun v => rfl, fun v s => ?_⟩
  have hexec : exec (.ldIndHlD8 v) s = _ := (exec_ldImm8Of .indHl v s).trans (loadSlotImm_indHl_eq v s)
  refine ⟨fun hin => ?_, fun hout => hexec.trans (if_neg hout.not_gt)⟩
  exact ⟨_, hexec.trans (if_pos hin), rfl, fun a => s.mem.read_write _ a v⟩

end Sys2Proof.Machine
end

section
/-! PROOFS. The statement of 45_move8.md: the 49 moves between cells. -/

namespace Sys2Proof.Machine

/-! ## The byte of a move (R82, R89) -/

/-- Two 3-bit fields that follow each other are the digits of a number to base 8. -/
theorem formatM_toNat (dst src : Slot) :
    (formatM dst src).toNat = 0x40 + 8 * dst.index.toNat + src.index.toNat := by
  simp only [formatM, BitVec.toNat_append]
  rw [← Nat.shiftLeft_add_eq_or_of_lt src.index.isLt, ← Nat.shiftLeft_add_eq_or_of_lt dst.index.isLt,
    Nat.shiftLeft_eq, Nat.shiftLeft_eq, BitVec.toNat_ofNat]
  omega

/-- All 49 moves are of format M. -/
theorem encode_move8Of (dst src : Reg8) : encode (move8Of dst src) = [formatM (.reg dst) (.reg src)] := by
  cases dst <;> cases src <;> rfl

/-! ## LD r,r' (R180) -/

/-- Settles O57: `moveReg_eq` writes the one cell and sets rem to 0, and a cell written with its own value is unchanged. -/
theorem moveRegister : Obligations.MoveRegister := by
  refine fun dst src => ⟨⟨_, encode_move8Of dst src, formatM_toNat (.reg dst) (.reg src)⟩, fun s =>
    ⟨_, (exec_move8Of dst src s).trans (moveReg_eq dst src s), ?_, ?_, ?_, ?_⟩⟩
  · rw [State.getReg_setRem, State.getReg_setReg_self]
  · intro q hq
    rw [State.getReg_setRem, State.getReg_setReg, if_neg hq]
  · exact congrArg (·.setRem 0) (s.setReg_eq_with_cells dst (s.getReg src))
  · rintro rfl
    exact congrArg (·.setRem 0) (s.setReg_getReg dst)

end Sys2Proof.Machine
end

section
/-! PROOFS. The statement of 46_unimplemented.md: the bytes with no row in the Opcode Table. -/

namespace Sys2Proof.Machine

/-- An instruction of a one-byte family is its opcode byte (R80). -/
theorem encode_eq_opcodeByte_of_length_eq_one (i : Instr) (h : i.family.length = 1) : encode i = [opcodeByte i] := by
  obtain ⟨opc, hopc⟩ := List.length_eq_one_iff.1 ((encode_length i).trans h)
  rw [opcodeByte, hopc, List.headD_cons]

/-- Two events follow each other in the log in the order in which they are emitted (R194). -/
theorem State.emit_emit (s : State) (b b' : Byte) :
    (s.emit b).emit b' = { s with log := s.log ++ [{ byte := b }, { byte := b' }] } := by
  simp only [State.emit, List.append_assoc, List.singleton_append]

/-- Settles O58: the family is one byte long, and `exec` emits that byte, whatever the log already holds. -/
theorem unimplementedEmitsDiagnostic : Obligations.UnimplementedEmitsDiagnostic := by
  intro i hi
  have hexec : ∀ s, exec i s = .next (s.emit (opcodeByte i)) := fun s =>
    (exec_of_unimplemented i s hi).trans (unimplemented_eq _ s)
  have hlength : i.family.length = 1 := by rw [hi]; rfl
  refine ⟨opcodeByte i, encode_eq_opcodeByte_of_length_eq_one i hlength, fun s => ⟨hexec s, ?_⟩⟩
  exact (hexec _).trans (congrArg Host.Outcome.next (s.emit_emit _ _))

end Sys2Proof.Machine
end

section
/-! PROOFS. The statements of 60_exceptions.md: an unrecognised byte is logged and passed over, and nothing else is logged. -/

namespace Sys2Proof

/-! ## The opcode byte of a one-byte instruction (R80, R90, R91) -/

/-- The opcode map leads to a one-byte instruction from that instruction's own byte only. -/
theorem opcodeByte_of_opcodeForm_eq_plain {opc : Byte} {i : Instr} (h : opcodeForm opc = .plain i) :
    opcodeByte i = opc := by
  induction opc using byte_cases with
  | h n hn => interval_cases n <;> cases h <;> rfl

/-- An instruction of a one-byte family is decoded from its opcode byte alone: the other forms are longer. -/
theorem opcodeForm_eq_plain_of_length_eq_one {opc : Byte} {tail : List Byte} {i : Instr} {rest : List Byte}
    (h : (opcodeForm opc).complete tail = .ok (i, rest)) (hone : i.family.length = 1) : opcodeForm opc = .plain i := by
  have hlen : (opcodeForm opc).length = 1 := (opcodeForm_length_of_complete h).trans hone
  obtain ⟨hform, -⟩ | ⟨k, v, hform, -⟩ | ⟨k, lo, hi, hform, -⟩ := ((opcodeForm opc).complete_eq_ok tail i rest).mp h
  · exact hform
  · rw [hform] at hlen; cases hlen
  · rw [hform] at hlen; cases hlen

end Sys2Proof

namespace Sys2Proof.Machine

/-! ## An unrecognised byte in a run (R201) -/

theorem State.bytesFrom_succ_of_lt {s : State} {addr : Word} (n : Nat) (h : addr.toNat < s.memSize) :
    s.bytesFrom (n + 1) addr = s.mem.read addr.toNat :: s.bytesFrom n (addr + 1) :=
  if_pos h

/-- Settles O11: the byte at PC is the whole instruction and its opcode byte, so the fetch moves PC past that byte and `exec`
emits it. -/
theorem missLogsAndContinues : Obligations.MissLogsAndContinues := by
  intro s i rest hrun hrem hdecode hmiss
  have hin : s.pc.toNat < s.memSize := (s.ended_eq_false_iff.mp hrun).2
  have hone : i.family.length = 1 := by rw [hmiss]; rfl
  rw [State.bytesFrom_succ_of_lt 2 hin] at hdecode
  have hform : opcodeForm (s.mem.read s.pc.toNat) = .plain i := opcodeForm_eq_plain_of_length_eq_one hdecode hone
  rw [step_of_fetchInstr hrun hrem (State.fetchInstr_of_plain hin hform), exec_of_unimplemented i _ hmiss,
    opcodeByte_of_opcodeForm_eq_plain hform, unimplemented_eq]
  rfl

/-! ## What an instruction adds to the log (R214) -/

/-- Setting the log to what it is changes nothing, and setting it commutes with a wired instruction. -/
theorem exec_next_log_of_wired {i : Instr} {s t : State} (hi : i.family ≠ .unimplemented) (h : exec i s = .next t) :
    t.log = s.log := by
  have hcomm : exec i s = onNext (·.setLog s.log) (exec i s) := exec_setLog i s s.log hi
  rw [h, onNext_next, Host.Outcome.next.injEq] at hcomm
  calc t.log = (t.setLog s.log).log := congrArg State.log hcomm
    _ = s.log := rfl

/-- Settles O20: an unimplemented byte is an `emit` of its opcode byte, and a wired instruction keeps the log. -/
theorem oneEventPerUnrecognisedByte : Obligations.OneEventPerUnrecognisedByte := by
  intro i s t h
  by_cases hi : i.family = .unimplemented
  · rw [exec_of_unimplemented i s hi, unimplemented_eq] at h
    cases h
    rw [if_pos hi, State.log_emit]
  · rw [if_neg hi, List.append_nil]
    exact exec_next_log_of_wired hi h

end Sys2Proof.Machine
end

section
/-! PROOFS. The statement of 70_reset_and_hazards.md on the fetching tick: it reads what the decoder reads from the bytes at PC,
and runs it whole. -/

namespace Sys2Proof

/-- However an instruction is decoded, its encoding is as long as the form its opcode byte selects (R80). -/
theorem encode_length_of_complete {opc : Byte} {tail : List Byte} {i : Instr} {rest : List Byte}
    (h : (opcodeForm opc).complete tail = .ok (i, rest)) : (encode i).length = (opcodeForm opc).length :=
  (encode_length i).trans (opcodeForm_length_of_complete h).symm

end Sys2Proof

namespace Sys2Proof.Machine

/-! ## The fetch of an instruction with immediate bytes (R85, R86) -/

theorem State.bytesFrom_eq_cons {s : State} {n : Nat} {addr : Word} {b : Byte} {tail : List Byte}
    (h : s.bytesFrom (n + 1) addr = b :: tail) :
    addr.toNat < s.memSize ∧ s.mem.read addr.toNat = b ∧ s.bytesFrom n (addr + 1) = tail := by
  by_cases hin : addr.toNat < s.memSize
  · rw [State.bytesFrom_succ_of_lt n hin, List.cons.injEq] at h
    exact ⟨hin, h⟩
  · rw [State.bytesFrom, if_neg hin] at h
    cases h

theorem State.fetchInstr_of_imm8 {s : State} {k : Byte → Instr} (hopc : s.pc.toNat < s.memSize)
    (himm : (s.pc + 1).toNat < s.memSize) (hform : opcodeForm (s.mem.read s.pc.toNat) = .imm8 k) :
    s.fetchInstr = .ok (k (s.mem.read (s.pc + 1).toNat), s.setPc (s.pc + 1 + 1)) := by
  unfold State.fetchInstr
  rw [s.fetch8_of_lt hopc]
  simp only [bind, Except.bind, hform]
  rw [(s.setPc (s.pc + 1)).fetch8_of_lt himm]
  rfl

/-- The byte after the opcode byte is the low half (R86). -/
theorem State.fetchInstr_of_imm16 {s : State} {k : Word → Instr} (hopc : s.pc.toNat < s.memSize)
    (hlo : (s.pc + 1).toNat < s.memSize) (hhi : (s.pc + 1 + 1).toNat < s.memSize)
    (hform : opcodeForm (s.mem.read s.pc.toNat) = .imm16 k) :
    s.fetchInstr = .ok (k (compose16 (s.mem.read (s.pc + 1 + 1).toNat) (s.mem.read (s.pc + 1).toNat)),
      s.setPc (s.pc + 1 + 1 + 1)) := by
  unfold State.fetchInstr
  rw [s.fetch8_of_lt hopc]
  simp only [bind, Except.bind, hform]
  rw [(s.setPc (s.pc + 1)).fetch8_of_lt hlo]
  simp only [State.pc_setPc]
  rw [((s.setPc (s.pc + 1)).setPc (s.pc + 1 + 1)).fetch8_of_lt hhi]
  rfl

/-! ## The fetch and the decoder (R234, R235) -/

/-- Fetching byte by byte answers what the decoder reads from the bytes at PC, with PC past that instruction's encoding: the form
of the opcode byte fixes both the bytes fetched and the encoding's length. -/
theorem State.fetchInstr_of_decode {s : State} {i : Instr} {rest : List Byte}
    (h : decode (s.bytesFrom 3 s.pc) = .ok (i, rest)) :
    s.fetchInstr = .ok (i, s.setPc (s.pc + BitVec.ofNat 16 (encode i).length)) := by
  have hopc : s.pc.toNat < s.memSize := by
    by_contra hout
    rw [State.bytesFrom, if_neg hout] at h
    cases h
  rw [State.bytesFrom_succ_of_lt 2 hopc, decode] at h
  rw [encode_length_of_complete h]
  obtain ⟨hform, -⟩ | ⟨k, v, hform, rfl, htail⟩ | ⟨k, lo, hi, hform, rfl, htail⟩ := (Form.complete_eq_ok _ _ i rest).mp h
  · rw [State.fetchInstr_of_plain hopc hform, hform]
    rfl
  · obtain ⟨himm, rfl, -⟩ := State.bytesFrom_eq_cons htail
    rw [State.fetchInstr_of_imm8 hopc himm hform, hform, BitVec.add_assoc]
    rfl
  · obtain ⟨hlo, rfl, htail'⟩ := State.bytesFrom_eq_cons htail
    obtain ⟨hhi, rfl, -⟩ := State.bytesFrom_eq_cons htail'
    rw [State.fetchInstr_of_imm16 hopc hlo hhi hform, hform, BitVec.add_assoc s.pc 1 1, BitVec.add_assoc]
    rfl

/-- Settles O7: a tick with no latency left is `exec` of what the fetch answers, and the fetch answers what decodes at PC. -/
theorem stepRunsDecodedInstruction : Obligations.StepRunsDecodedInstruction := fun _ _ _ hrun hrem hdecode =>
  step_of_fetchInstr hrun hrem (State.fetchInstr_of_decode hdecode)

end Sys2Proof.Machine
end

section
/-! PROOFS. The statements of 30_encoding.md on the decoder and the encoder: each undoes the other, the two decoders agree, and
which bytes are unimplemented. -/

namespace Sys2Proof

/-! ## Decoding the bytes of each form (R80, R85, R86) -/

theorem decode_of_plain {opc : Byte} {i : Instr} (h : opcodeForm opc = .plain i) (rest : List Byte) :
    decode ([opc] ++ rest) = .ok (i, rest) := by
  rw [List.singleton_append, decode, h]
  rfl

theorem decode_of_imm8 {opc : Byte} {k : Byte → Instr} (h : opcodeForm opc = .imm8 k) (v : Byte) (rest : List Byte) :
    decode ([opc, v] ++ rest) = .ok (k v, rest) := by
  rw [List.cons_append, decode, h]
  rfl

theorem decode_of_imm16 {opc : Byte} {k : Word → Instr} (h : opcodeForm opc = .imm16 k) (v : Word) (rest : List Byte) :
    decode (withD16 opc v ++ rest) = .ok (k v, rest) := by
  have hv : compose16 (hi8 v) (lo8 v) = v := Machine.compose16_hi8_lo8 v
  rw [withD16, List.cons_append, decode, h]
  exact congrArg (fun w => Except.ok (k w, rest)) hv

/-! ## The opcode map at the bytes of each format (R82, R88) -/

theorem opcodeForm_ldPairImm (p : Pair) : opcodeForm (formatP p 0b0001#4) = .imm16 (ldPairImmOf p) := by
  cases p <;> rfl

theorem opcodeForm_incPair (p : Pair) : opcodeForm (formatP p 0b0011#4) = .plain (incPairOf p) := by
  cases p <;> rfl

theorem opcodeForm_decPair (p : Pair) : opcodeForm (formatP p 0b1011#4) = .plain (decPairOf p) := by
  cases p <;> rfl

theorem opcodeForm_addHl (p : Pair) : opcodeForm (formatP p 0b1001#4) = .plain (addHlOf p) := by
  cases p <;> rfl

theorem opcodeForm_storeA (p : IndPair) : opcodeForm (formatI p 0#1) = .plain (storeAOf p) := by
  cases p <;> rfl

theorem opcodeForm_loadA (p : IndPair) : opcodeForm (formatI p 1#1) = .plain (loadAOf p) := by
  cases p <;> rfl

theorem opcodeForm_inc8 (k : Slot) : opcodeForm (formatS k 0b100#3) = .plain (inc8Of k) := by
  rcases k with r | _ <;> [cases r <;> rfl; rfl]

theorem opcodeForm_dec8 (k : Slot) : opcodeForm (formatS k 0b101#3) = .plain (dec8Of k) := by
  rcases k with r | _ <;> [cases r <;> rfl; rfl]

theorem opcodeForm_ldImm8 (k : Slot) : opcodeForm (formatS k 0b110#3) = .imm8 (ldImm8Of k) := by
  rcases k with r | _ <;> [cases r <;> rfl; rfl]

theorem opcodeForm_move8 (dst src : Reg8) : opcodeForm (formatM (.reg dst) (.reg src)) = .plain (move8Of dst src) := by
  cases dst <;> cases src <;> rfl

/-- From 0x80 on the opcode map is one row (R91). -/
theorem opcodeForm_of_msb (b : Byte) (h : b.msb = true) : opcodeForm b = .plain (.unimpl80ToFF b) := by
  induction b using byte_cases with
  | h n hn =>
    have hge : 128 ≤ n := by
      rw [BitVec.msb_eq_decide, decide_eq_true_iff, BitVec.toNat_ofNat] at h
      omega
    interval_cases n <;> rfl

theorem opcodeForm_unimplemented (i : Instr) (hwf : i.wf = true) (hi : i.family = .unimplemented) :
    opcodeForm (opcodeByte i) = .plain i := by
  cases i
  case unimpl80ToFF b => exact opcodeForm_of_msb b hwf
  all_goals first | rfl | cases hi

/-! ## The encoder by family (R82) -/

theorem encode_incPairOf (p : Pair) : encode (incPairOf p) = [formatP p 0b0011#4] := by cases p <;> rfl

theorem encode_decPairOf (p : Pair) : encode (decPairOf p) = [formatP p 0b1011#4] := by cases p <;> rfl

theorem encode_addHlOf (p : Pair) : encode (addHlOf p) = [formatP p 0b1001#4] := by cases p <;> rfl

theorem encode_storeAOf (p : IndPair) : encode (storeAOf p) = [formatI p 0#1] := by cases p <;> rfl

theorem encode_loadAOf (p : IndPair) : encode (loadAOf p) = [formatI p 1#1] := by cases p <;> rfl

theorem encode_inc8Of (k : Slot) : encode (inc8Of k) = [formatS k 0b100#3] := by
  rcases k with r | _ <;> [cases r <;> rfl; rfl]

theorem encode_dec8Of (k : Slot) : encode (dec8Of k) = [formatS k 0b101#3] := by
  rcases k with r | _ <;> [cases r <;> rfl; rfl]

theorem encode_ldImm8Of (k : Slot) (v : Byte) : encode (ldImm8Of k v) = [formatS k 0b110#3, v] := by
  rcases k with r | _ <;> [cases r <;> rfl; rfl]

/-! ## The two round trips (R85, R92) -/

/-- Settles O1, family by family: the byte the format composes is one the opcode map sends back to the same operands, and a d16
is put together again from its two halves. -/
theorem decodeOfEncode : Obligations.DecodeOfEncode := by
  intro i rest hwf
  induction i using Machine.instr_by_family with
  | nop => rfl
  | halt => rfl
  | ldPairImm p v =>
    rw [Machine.encode_ldPairImmOf]
    exact decode_of_imm16 (opcodeForm_ldPairImm p) v rest
  | ldSpAlias v => exact decode_of_imm16 (k := .ldSpD16Alias) rfl v rest
  | storeA p =>
    rw [encode_storeAOf]
    exact decode_of_plain (opcodeForm_storeA p) rest
  | loadA p =>
    rw [encode_loadAOf]
    exact decode_of_plain (opcodeForm_loadA p) rest
  | incPair p =>
    rw [encode_incPairOf]
    exact decode_of_plain (opcodeForm_incPair p) rest
  | decPair p =>
    rw [encode_decPairOf]
    exact decode_of_plain (opcodeForm_decPair p) rest
  | addHl p =>
    rw [encode_addHlOf]
    exact decode_of_plain (opcodeForm_addHl p) rest
  | inc8 k =>
    rw [encode_inc8Of]
    exact decode_of_plain (opcodeForm_inc8 k) rest
  | dec8 k =>
    rw [encode_dec8Of]
    exact decode_of_plain (opcodeForm_dec8 k) rest
  | ldImm8 k v =>
    rw [encode_ldImm8Of]
    exact decode_of_imm8 (opcodeForm_ldImm8 k) v rest
  | move8 dst src =>
    rw [Machine.encode_move8Of]
    exact decode_of_plain (opcodeForm_move8 dst src) rest
  | unimpl i hi =>
    rw [Machine.encode_eq_opcodeByte_of_length_eq_one i (by rw [hi]; rfl)]
    exact decode_of_plain (opcodeForm_unimplemented i hwf hi) rest

/-- What a form says of every instruction it makes: it is well formed, and its encoding is the opcode byte `opc` with its
immediate after it. -/
def Form.EncodedFrom (opc : Byte) : Form → Prop
  | .plain i => i.wf = true ∧ encode i = [opc]
  | .imm8 k => ∀ v, (k v).wf = true ∧ encode (k v) = [opc, v]
  | .imm16 k => ∀ v, (k v).wf = true ∧ encode (k v) = withD16 opc v

/-- The opcode map is inverse to the encoder on each of its 256 rows. -/
theorem opcodeForm_encodedFrom (opc : Byte) : (opcodeForm opc).EncodedFrom opc := by
  induction opc using byte_cases with
  | h n hn => interval_cases n <;> first | exact ⟨rfl, rfl⟩ | exact fun v => ⟨rfl, rfl⟩

/-- Settles O2: the decoder reads an opcode byte and what its form takes, and the row of the opcode map encodes back to them. -/
theorem encodeOfDecode : Obligations.EncodeOfDecode := by
  rintro (_ | ⟨opc, tail⟩) i rest h
  · cases h
  have hrow := opcodeForm_encodedFrom opc
  obtain ⟨hf, rfl⟩ | ⟨k, v, hf, rfl, rfl⟩ | ⟨k, lo, hi, hf, rfl, rfl⟩ := (Form.complete_eq_ok _ tail i rest).mp h
  · rw [hf] at hrow
    obtain ⟨hwf, henc⟩ := hrow
    exact ⟨hwf, by rw [henc]; rfl⟩
  · rw [hf] at hrow
    obtain ⟨hwf, henc⟩ := hrow v
    exact ⟨hwf, by rw [henc]; rfl⟩
  · rw [hf] at hrow
    obtain ⟨hwf, henc⟩ := hrow (compose16 hi lo)
    exact ⟨hwf, by rw [henc, Machine.withD16_compose16]; rfl⟩

/-! ## The unimplemented bytes (R91, R92) -/

/-- The form is an unimplemented byte. -/
def Form.isUnimplemented : Form → Bool
  | .plain i => decide (i.family = .unimplemented)
  | .imm8 _ | .imm16 _ => false

/-- An instruction that takes an immediate is of a longer family than the unimplemented bytes. -/
theorem family_eq_unimplemented_iff {opc : Byte} {tail : List Byte} {i : Instr} {rest : List Byte}
    (h : (opcodeForm opc).complete tail = .ok (i, rest)) :
    i.family = .unimplemented ↔ (opcodeForm opc).isUnimplemented = true := by
  have hlen := opcodeForm_length_of_complete h
  obtain ⟨hf, -⟩ | ⟨k, v, hf, -⟩ | ⟨k, lo, hi, hf, -⟩ := (Form.complete_eq_ok _ tail i rest).mp h
  · simp [hf, Form.isUnimplemented]
  · rw [hf] at hlen ⊢
    exact iff_of_false (fun hi => by rw [hi] at hlen; cases hlen) nofun
  · rw [hf] at hlen ⊢
    exact iff_of_false (fun hi => by rw [hi] at hlen; cases hlen) nofun

theorem opcodeForm_isUnimplemented_iff (opc : Byte) :
    (opcodeForm opc).isUnimplemented = true ↔
      opc.toNat ∈ [0x07, 0x0F, 0x10, 0x17, 0x18, 0x1F, 0x20, 0x22, 0x27, 0x28, 0x2A, 0x2F, 0x30, 0x32, 0x37, 0x38, 0x3A,
        0x3F, 0x46, 0x4E, 0x56, 0x5E, 0x66, 0x6E, 0x70, 0x71, 0x72, 0x73, 0x74, 0x75, 0x77, 0x7E] ∨
      0x80 ≤ opc.toNat := by
  induction opc using byte_cases with
  | h n hn => interval_cases n <;> decide

/-- No form takes more than two bytes. -/
theorem Form.exists_complete (f : Form) (b1 b2 : Byte) : ∃ i rest, f.complete [b1, b2] = .ok (i, rest) := by
  cases f <;> exact ⟨_, _, rfl⟩

/-- Settles O3: two bytes complete every form, and whether the result is unimplemented is read off the opcode map. -/
theorem unimplementedByteSet : Obligations.UnimplementedByteSet := by
  intro opc b1 b2
  obtain ⟨i, rest, h⟩ := (opcodeForm opc).exists_complete b1 b2
  exact ⟨i, rest, h, (family_eq_unimplemented_iff h).trans (opcodeForm_isUnimplemented_iff opc)⟩

/-! ## The decoder by format (R98) -/

/-- Settles O5, row by row of the opcode map. -/
theorem formatDecoderAgrees : Obligations.FormatDecoderAgrees := by
  intro opc
  induction opc using byte_cases with
  | h n hn => interval_cases n <;> rfl

/-- Settles O6: every word is the encoding of the instruction it stands for, so `decodeOfEncode` decodes it. -/
theorem specWordsDecode : Obligations.SpecWordsDecode := by
  have hdecode : ∀ i : Instr, i.wf = true → decode (encode i) = .ok (i, []) := fun i hwf => by
    simpa using decodeOfEncode i [] hwf
  exact ⟨hdecode .nop rfl, hdecode .halt rfl, hdecode (.ldBcD16 0x0006) rfl, hdecode (.ldHlD16 0x0FFF) rfl,
    hdecode (.ldSpD16Alias 0xC000) rfl, hdecode .ldIndDeA rfl, hdecode .ldAIndBc rfl, hdecode .incSp rfl,
    hdecode .decDe rfl, hdecode .addHlHl rfl, hdecode .incIndHl rfl, hdecode .decA rfl, hdecode (.ldCD8 0x80) rfl,
    hdecode .ldAB rfl, hdecode .unimpl70 rfl, hdecode (.unimpl80ToFF 0xD3) rfl⟩

end Sys2Proof
end

section
/-! PROOFS. The statements of 10_state.md and 20_memory.md on construction, the memory and the host's memory operations. -/

namespace Sys2Proof.Machine

/-! ## Construction and the invariant at reset (R39 to R44) -/

/-- Settles O13: construction stores these values, and `State.reset` is construction at the values Config names. -/
theorem constructionValues : Obligations.ConstructionValues :=
  ⟨fun n i => ⟨State.construct n i, rfl, rfl, rfl, rfl, rfl, rfl, rfl, rfl, rfl⟩,
    Config.resetMemSize, Config.resetInit, rfl, by decide, by decide⟩

/-- A core just constructed has an empty memory, no latency and PC at the first byte. -/
theorem State.construct_inv {n : Nat} (i : Init) (hpos : 1 ≤ n) (hmax : n ≤ 65536) : (State.construct n i).Inv :=
  ⟨⟨hpos, hmax⟩, rfl, rfl, Nat.zero_le 2, fun _ => rfl, Nat.zero_le n⟩

/-- Settles O15: `State.reset` is construction with a legal capacity. -/
theorem invariantAtReset : Obligations.InvariantAtReset :=
  ⟨State.construct_inv Config.resetInit (by decide) (by decide), fun _ i hpos hmax => State.construct_inv i hpos hmax⟩

/-! ## The canonical form of a memory (R50) -/

@[simp] theorem Memory.read_cons_self (c : Host.Cell) (m : Memory) : Memory.read (c :: m) c.1 = c.2 := if_pos rfl

theorem Memory.read_cons_of_ne {c : Host.Cell} {x : Nat} (m : Memory) (h : c.1 ≠ x) :
    Memory.read (c :: m) x = m.read x := if_neg h

/-- A canonical memory lists at its head a byte that is not blank, so another memory that reads alike there lists an address
that is not above it. -/
theorem Memory.not_lt_head {c : Host.Cell} {m k : Memory} (hwf : Memory.wf (c :: m) = true)
    (hread : Memory.read (c :: m) c.1 = k.read c.1) : ¬ ∀ d ∈ k, c.1 < d.1 := by
  intro hlt
  obtain ⟨hne, -, -⟩ := (Memory.wf_cons c m).mp hwf
  rw [Memory.read_cons_self, k.read_of_lt_head c.1 hlt] at hread
  exact hne hread

/-- Canonical memories whose first cells have one address, and that read alike, have the same first byte and rests that read
alike: both rests read as blank at that address. -/
theorem Memory.read_tail_eq {c d : Host.Cell} {m k : Memory} (hm : ∀ x ∈ m, c.1 < x.1) (hk : ∀ x ∈ k, c.1 < x.1)
    (haddr : c.1 = d.1) (hread : ∀ a, Memory.read (c :: m) a = Memory.read (d :: k) a) :
    c = d ∧ ∀ a, m.read a = k.read a := by
  have hbyte : c.2 = d.2 := by
    have h := hread c.1
    rwa [Memory.read_cons_self, haddr, Memory.read_cons_self] at h
  refine ⟨Prod.ext haddr hbyte, fun a => ?_⟩
  by_cases ha : c.1 = a
  · rw [← ha, m.read_of_lt_head c.1 hm, k.read_of_lt_head c.1 hk]
  · have h := hread a
    rwa [Memory.read_cons_of_ne m ha, Memory.read_cons_of_ne k (haddr ▸ ha)] at h

theorem Memory.eq_of_read_eq {m k : Memory} (hm : m.wf = true) (hk : k.wf = true) (hread : ∀ a, m.read a = k.read a) :
    m = k := by
  induction m generalizing k with
  | nil =>
    cases k with
    | nil => rfl
    | cons d k => exact absurd nofun (Memory.not_lt_head hk (hread d.1).symm)
  | cons c m ih =>
    cases k with
    | nil => exact absurd nofun (Memory.not_lt_head hm (hread c.1))
    | cons d k =>
      obtain ⟨-, hcm, hm'⟩ := (Memory.wf_cons c m).mp hm
      obtain ⟨-, hdk, hk'⟩ := (Memory.wf_cons d k).mp hk
      have haddr : c.1 = d.1 := by
        obtain hlt | heq | hgt := Nat.lt_trichotomy c.1 d.1
        · have hall : ∀ x ∈ d :: k, c.1 < x.1 := List.forall_mem_cons.mpr ⟨hlt, fun x hx => hlt.trans (hdk x hx)⟩
          exact absurd hall (Memory.not_lt_head hm (hread c.1))
        · exact heq
        · have hall : ∀ x ∈ c :: m, d.1 < x.1 := List.forall_mem_cons.mpr ⟨hgt, fun x hx => hgt.trans (hcm x hx)⟩
          exact absurd hall (Memory.not_lt_head hk (hread d.1).symm)
      obtain ⟨rfl, htail⟩ := Memory.read_tail_eq hcm (haddr ▸ hdk) haddr hread
      rw [ih hm' hk' htail]

/-- Settles O18, by induction on the two lists: their heads are the least address that does not read as blank. -/
theorem canonicalMemoryIsUnique : Obligations.CanonicalMemoryIsUnique := fun _ _ hm hk hread =>
  Memory.eq_of_read_eq hm hk hread

/-! ## MemRead and MemWrite (R51 to R53) -/

theorem State.memRead_of_memWrite_of_ne {s t : State} {addr other : Word} {v : Byte} (h : s.memWrite addr v = .ok t)
    (hne : other ≠ addr) : t.memRead other = s.memRead other := by
  obtain ⟨-, rfl⟩ := (s.memWrite_eq_ok t addr v).mp h
  have hne' : other.toNat ≠ addr.toNat := fun heq => hne (BitVec.eq_of_toNat_eq heq)
  simp [State.memRead, Memory.read_write_of_ne _ _ _ _ hne']

/-- Settles O29: one law for each clause. -/
theorem memoryPrimitives : Obligations.MemoryPrimitives := by
  refine fun s addr v => ⟨fun hin => ?_, fun hout => ?_⟩
  · have hwrite := s.memWrite_of_lt addr v hin
    exact ⟨_, hwrite, rfl, State.memRead_of_memWrite hwrite, fun other hne => State.memRead_of_memWrite_of_ne hwrite hne⟩
  · exact ⟨s.memRead_of_ge addr hout.not_gt, s.memWrite_of_ge addr v hout.not_gt⟩

/-! ## load and a new CPU (R65) -/

theorem State.load_of_neg (s : State) (bytes : List Byte) {offset : Int} (h : offset < 0) :
    s.load bytes offset = .error .negativeOffset := if_pos h

/-- Settles O34: `placeBytes_spec` says that only memory changes, and `read_placeBytes` what it reads as. -/
theorem loadCopiesWhatFits : Obligations.LoadCopiesWhatFits := by
  refine ⟨fun s bytes offset => ⟨_, s.load_of_nonneg bytes offset, ?_, s.read_placeBytes bytes offset⟩,
    fun s bytes offset h => s.load_of_neg bytes h⟩
  exact (State.placeBytes_spec bytes s offset).1

/-- Loading writes the buffer and reads the capacity, both of which a new CPU takes over. -/
theorem State.placeBytes_newCpu (bytes : List Byte) (s : State) (i : Init) (addr : Nat) :
    (s.newCpu i).placeBytes bytes addr = (s.placeBytes bytes addr).newCpu i := by
  induction bytes generalizing s addr with
  | nil => rfl
  | cons v rest ih =>
    unfold State.placeBytes
    rw [State.memSize_newCpu]
    split
    · exact ih { s with mem := s.mem.write addr v } (addr + 1)
    · rfl

theorem State.newCpu_inv {s : State} (i : Init) (h : s.Inv) : (s.newCpu i).Inv := by
  obtain ⟨hsize, hwf, hinside, -⟩ := h
  exact ⟨hsize, hwf, hinside, Nat.zero_le 2, fun _ => rfl, Nat.zero_le s.memSize⟩

/-- Settles O59: a new CPU has the fields of construction but for the buffer, which loading alone changes. -/
theorem newCpuOverUsedMemory : Obligations.NewCpuOverUsedMemory := by
  refine ⟨fun s i => ⟨s.newCpu i, rfl, rfl, rfl, rfl, rfl, rfl, rfl, rfl, rfl, rfl⟩, fun s i bytes offset => ?_,
    fun s i => rfl, fun s i h => State.newCpu_inv i h⟩
  refine ⟨_, s.load_of_nonneg bytes offset, ?_⟩
  rw [State.load_of_nonneg, State.placeBytes_newCpu]

/-! ## The packed view of the flags (R32, R33) -/

/-- Each flag is its own bit of the packed byte. -/
theorem State.packF_bits (s : State) :
    s.packF.getLsbD 0 = s.fZ ∧ s.packF.getLsbD 1 = s.fN ∧ s.packF.getLsbD 2 = s.fH ∧ s.packF.getLsbD 3 = s.fC := by
  unfold State.packF
  generalize s.fZ = z, s.fN = n, s.fH = hc, s.fC = cy
  revert z n hc cy
  decide

theorem State.packF_toNat (s : State) :
    s.packF.toNat = s.fZ.toNat + 2 * s.fN.toNat + 4 * s.fH.toNat + 8 * s.fC.toNat := by
  unfold State.packF
  generalize s.fZ = z, s.fN = n, s.fH = hc, s.fC = cy
  revert z n hc cy
  decide

theorem State.unpackF_packF (s : State) : s.unpackF s.packF = s := by
  obtain ⟨hz, hn, hhc, hcy⟩ := s.packF_bits
  rw [State.unpackF, hz, hn, hhc, hcy]
  rfl

/-- Packing reads only the four flags, so this is a fact about 256 bytes. -/
theorem State.packF_unpackF (s : State) (v : Byte) : (s.unpackF v).packF = v &&& 0x0F := by
  have hbits : ∀ v : Byte, ((if v.getLsbD 0 then 1 else 0) ||| (if v.getLsbD 1 then 2 else 0) |||
      (if v.getLsbD 2 then 4 else 0) ||| (if v.getLsbD 3 then 8 else 0) : Byte) = v &&& 0x0F := by decide
  exact hbits v

/-- Settles O33: the number of the packed byte, and the two round trips. -/
theorem packedFlagsRoundTrip : Obligations.PackedFlagsRoundTrip :=
  ⟨fun s => ⟨s.packF_toNat, s.unpackF_packF⟩, State.packF_unpackF⟩

end Sys2Proof.Machine
end

section
/-! PROOFS. The statements on when an instruction faults, what it stores and that it does not touch PC: 60_exceptions.md section 1,
20_memory.md sections 2 and 4, 10_state.md section 2. -/

namespace Sys2Proof.Machine

/-! ## When an instruction completes (R53, R203) -/

/-- An instruction without a data address completes in every state. -/
theorem exec_completes_of_no_address {i : Instr} (hi : addressPair i = none) (s : State) : ∃ t, exec i s = .next t := by
  induction i using instr_by_family with
  | nop => exact ⟨_, exec_nop s⟩
  | halt => exact ⟨_, exec_halt s⟩
  | ldPairImm p v => exact ⟨_, exec_ldPairImmOf p v s⟩
  | ldSpAlias v => exact ⟨_, exec_ldSpAlias v s⟩
  | storeA p => cases p <;> cases hi
  | loadA p => cases p <;> cases hi
  | incPair p => exact ⟨_, exec_incPairOf p s⟩
  | decPair p => exact ⟨_, exec_decPairOf p s⟩
  | addHl p => exact ⟨_, exec_addHlOf p s⟩
  | inc8 k =>
    cases k with
    | reg r => exact ⟨_, exec_inc8Of (.reg r) s⟩
    | indHl => cases hi
  | dec8 k =>
    cases k with
    | reg r => exact ⟨_, exec_dec8Of (.reg r) s⟩
    | indHl => cases hi
  | ldImm8 k v =>
    cases k with
    | reg r => exact ⟨_, exec_ldImm8Of (.reg r) v s⟩
    | indHl => cases hi
  | move8 dst src => exact ⟨_, exec_move8Of dst src s⟩
  | unimpl i hu => exact ⟨_, exec_of_unimplemented i s hu⟩

/-- An instruction with a data address completes when it is inside the buffer and faults at it when it is not. -/
theorem exec_at_address {i : Instr} {p : Pair} (hi : addressPair i = some p) (s : State) :
    ((s.get16 p).toNat < s.memSize → ∃ t, exec i s = .next t) ∧
      (s.memSize ≤ (s.get16 p).toNat → exec i s = .fault (.memOutOfRange (s.get16 p))) := by
  obtain ⟨q, rfl, rfl⟩ | ⟨q, rfl, rfl⟩ | ⟨rfl, rfl | rfl | ⟨v, rfl⟩⟩ := addressPair_eq_some i p hi
  · rw [exec_storeAOf, storeAThrough_eq]
    exact ⟨fun hin => ⟨_, if_pos hin⟩, fun hout => if_neg hout.not_gt⟩
  · rw [exec_loadAOf, loadAThrough_eq]
    exact ⟨fun hin => ⟨_, if_pos hin⟩, fun hout => if_neg hout.not_gt⟩
  · rw [exec_inc8Of, incSlot_indHl_eq]
    exact ⟨fun hin => ⟨_, if_pos hin⟩, fun hout => if_neg hout.not_gt⟩
  · rw [exec_dec8Of, decSlot_indHl_eq]
    exact ⟨fun hin => ⟨_, if_pos hin⟩, fun hout => if_neg hout.not_gt⟩
  · rw [exec_ldImm8Of, loadSlotImm_indHl_eq]
    exact ⟨fun hin => ⟨_, if_pos hin⟩, fun hout => if_neg hout.not_gt⟩

theorem dataAddress_eq_some_iff (i : Instr) (s : State) (a : Word) :
    dataAddress i s = some a ↔ ∃ p, addressPair i = some p ∧ s.get16 p = a :=
  Option.map_eq_some_iff

/-- The two ways an instruction can end: it completes, and its data address, if it has one, is inside the buffer; or it faults
at a data address outside it. -/
theorem exec_cases (i : Instr) (s : State) :
    ((∃ t, exec i s = .next t) ∧ ∀ a, dataAddress i s = some a → a.toNat < s.memSize) ∨
      ∃ a, dataAddress i s = some a ∧ s.memSize ≤ a.toNat ∧ exec i s = .fault (.memOutOfRange a) := by
  cases hp : addressPair i with
  | none => exact .inl ⟨exec_completes_of_no_address hp s, fun a ha => by simp [dataAddress, hp] at ha⟩
  | some p =>
    have hdata : dataAddress i s = some (s.get16 p) := congrArg (Option.map s.get16) hp
    obtain ⟨hcompletes, hfaults⟩ := exec_at_address hp s
    obtain hin | hout := Nat.lt_or_ge (s.get16 p).toNat s.memSize
    · exact .inl ⟨hcompletes hin, fun a ha => Option.some.inj (hdata.symm.trans ha) ▸ hin⟩
    · exact .inr ⟨_, hdata, hout, hfaults hout⟩

/-- Settles O36: a data address outside the buffer is the only way not to complete. -/
theorem everyInstructionCompletes : Obligations.EveryInstructionCompletes := by
  intro i s hin
  obtain ⟨hnext, -⟩ | ⟨a, ha, hout, -⟩ := exec_cases i s
  · exact hnext
  · exact absurd (hin a ha) hout.not_gt

theorem exec_ne_refused (i : Instr) (s : State) (r : Refusal) : exec i s ≠ .refused r := by
  obtain ⟨⟨t, h⟩, -⟩ | ⟨a, -, -, h⟩ := exec_cases i s <;> rw [h] <;> nofun

/-- Settles O35: an instruction has at most one data address, and outside the buffer it faults there. -/
theorem faultsExactlyOutsideBuffer : Obligations.FaultsExactlyOutsideBuffer := by
  refine fun i s => ⟨fun f => ?_, exec_ne_refused i s⟩
  obtain ⟨⟨t, h⟩, hin⟩ | ⟨a, ha, hout, h⟩ := exec_cases i s
  · rw [h]
    exact iff_of_false nofun fun ⟨a, ha, hout, _⟩ => hout.not_gt (hin a ha)
  · rw [h]
    constructor
    · rintro ⟨⟩
      exact ⟨a, ha, hout, rfl⟩
    · rintro ⟨b, hb, -, rfl⟩
      rw [Option.some.inj (ha.symm.trans hb)]

theorem dataAddress_in_buffer {i : Instr} {s t : State} {a : Word} (h : exec i s = .next t)
    (ha : dataAddress i s = some a) : a.toNat < s.memSize := by
  obtain ⟨-, hin⟩ | ⟨b, -, -, hfault⟩ := exec_cases i s
  · exact hin a ha
  · rw [hfault] at h
    cases h

/-! ## What a store leaves in memory (R56) -/

theorem storeAddress_eq_some_iff (i : Instr) (s : State) (w : Word) :
    storeAddress i s = some w ↔ (∃ v, storedByte i s = some v) ∧ dataAddress i s = some w := by
  cases hv : storedByte i s <;> simp [storeAddress, hv]

/-- An instruction that stores writes the stored byte at its store address, inside the buffer. -/
theorem exec_next_mem_of_storeAddress {i : Instr} {s t : State} {w : Word} {v : Byte} (h : exec i s = .next t)
    (hw : storeAddress i s = some w) (hv : storedByte i s = some v) :
    t.mem = s.mem.write w.toNat v ∧ w.toNat < s.memSize := by
  obtain ⟨-, ha⟩ := (storeAddress_eq_some_iff i s w).mp hw
  obtain ⟨p, hp, rfl⟩ := (dataAddress_eq_some_iff i s w).mp ha
  exact ⟨(exec_next_of_stores hp hv h).1, dataAddress_in_buffer h ha⟩

theorem exists_storeAddress {i : Instr} {s : State} {v : Byte} (hv : storedByte i s = some v) :
    ∃ w, storeAddress i s = some w := by
  obtain ⟨p, hp⟩ := exists_addressPair hv
  exact ⟨s.get16 p, (storeAddress_eq_some_iff i s _).mpr ⟨⟨v, hv⟩, (dataAddress_eq_some_iff i s _).mpr ⟨p, hp, rfl⟩⟩⟩

/-- Settles O27: an instruction either keeps the memory or writes its one stored byte. -/
theorem memoryFrame : Obligations.MemoryFrame := by
  intro i s t h
  cases hv : storedByte i s with
  | none => exact ⟨fun a _ => by rw [exec_next_mem_of_not_stores hv h], fun w v _ hv' => nomatch hv'⟩
  | some v =>
    obtain ⟨w, hw⟩ := exists_storeAddress hv
    obtain ⟨hmem, -⟩ := exec_next_mem_of_storeAddress h hw hv
    refine ⟨fun a ha => ?_, fun w' v' hw' hv' => ?_⟩
    · rw [hmem, Memory.read_write_of_ne _ _ _ _ (ha w hw)]
    · obtain rfl : w = w' := Option.some.inj (hw.symm.trans hw')
      obtain rfl : v = v' := Option.some.inj hv'
      rw [hmem, Memory.read_write_self]

/-- Settles O30: the store writes the byte at PC, inside the buffer, and PC has not moved since. -/
theorem storeSeenByNextFetch : Obligations.StoreSeenByNextFetch := by
  intro i s t v h hw hv
  obtain ⟨hmem, hin⟩ := exec_next_mem_of_storeAddress h hw hv
  obtain ⟨hpc, hsize, -⟩ := exec_next_inv i s t h
  rw [State.fetch8_of_lt t (by rwa [hpc, hsize]), hpc, hmem, Memory.read_write_self]

/-! ## PC and the capacity (R28) -/

theorem untouched_setPc (w : Word) : Untouched (·.setPc w) := {}

/-- Settles O22: setting PC commutes with every instruction, since none reads or writes it. -/
theorem execLeavesPcAndCapacity : Obligations.ExecLeavesPcAndCapacity := by
  refine fun i s w => ⟨?_, fun t h => ?_⟩
  · exact (untouched_setPc w).exec i s (fun _ => {}) (fun _ => rfl) (fun _ _ => rfl)
  · obtain ⟨hpc, hsize, -⟩ := exec_next_inv i s t h
    exact ⟨hpc, hsize⟩

end Sys2Proof.Machine
end

section
/-! PROOFS. The statements on the flags and cells an instruction reads and writes, and on what it costs: 10_state.md sections 1 to
3, 70_reset_and_hazards.md section 4. -/

namespace Sys2Proof.Machine

/-! ## The flags are not read (R31) -/

theorem State.setFlags_setFlags (s : State) (z n hc cy z' n' hc' cy' : Bool) :
    (s.setFlags z n hc cy).setFlags z' n' hc' cy' = s.setFlags z' n' hc' cy' := rfl

theorem State.setReg_setFlags (s : State) (r : Reg8) (v : Byte) (z n hc cy : Bool) :
    (s.setReg r v).setFlags z n hc cy = (s.setFlags z n hc cy).setReg r v := by cases r <;> rfl

theorem State.set16_setFlags (s : State) (p : Pair) (v : Word) (z n hc cy : Bool) :
    (s.set16 p v).setFlags z n hc cy = (s.setFlags z n hc cy).set16 p v := by cases p <;> rfl

theorem State.setRem_setFlags (s : State) (m : Nat) (z n hc cy : Bool) :
    (s.setRem m).setFlags z n hc cy = (s.setFlags z n hc cy).setRem m := rfl

/-- Up to the flags an instruction does the same whatever the flags are: the update of a cell, a pair or the memory takes no
flag, and a flag that is passed on is overwritten here. -/
theorem exec_forgets_flags (i : Instr) (s : State) (z n hc cy : Bool) :
    onNext (·.setFlags false false false false) (exec i (s.setFlags z n hc cy)) =
      onNext (·.setFlags false false false false) (exec i s) := by
  induction i using instr_by_family with
  | nop => rfl
  | halt => rfl
  | ldPairImm p v => simp [loadPairImm_eq, State.setRem_setFlags, State.set16_setFlags, State.setFlags_setFlags]
  | ldSpAlias v => rfl
  | storeA p => simp only [exec_storeAOf, storeAThrough_eq, apply_ite (onNext _), State.get16_setFlags]; rfl
  | loadA p =>
    simp only [exec_loadAOf, loadAThrough_eq, apply_ite (onNext _), State.get16_setFlags]; rfl
  | incPair p => simp [incPair_eq, State.setRem_setFlags, State.set16_setFlags, State.setFlags_setFlags]
  | decPair p => simp [decPair_eq, State.setRem_setFlags, State.set16_setFlags, State.setFlags_setFlags]
  | addHl p =>
    simp [addHl_eq, State.setRem_setFlags, State.set16_setFlags, State.addFlags, State.setFlags_setFlags]
  | inc8 k =>
    cases k with
    | reg r =>
      simp [incSlot_reg_eq, State.setRem_setFlags, State.setReg_setFlags, State.incFlags, State.setFlags_setFlags]
    | indHl => simp only [exec_inc8Of, incSlot_indHl_eq, apply_ite (onNext _), State.get16_setFlags]; rfl
  | dec8 k =>
    cases k with
    | reg r =>
      simp [decSlot_reg_eq, State.setRem_setFlags, State.setReg_setFlags, State.decFlags, State.setFlags_setFlags]
    | indHl => simp only [exec_dec8Of, decSlot_indHl_eq, apply_ite (onNext _), State.get16_setFlags]; rfl
  | ldImm8 k v =>
    cases k with
    | reg r => simp [loadSlotImm_reg_eq, State.setRem_setFlags, State.setReg_setFlags, State.setFlags_setFlags]
    | indHl => simp only [exec_ldImm8Of, loadSlotImm_indHl_eq, apply_ite (onNext _), State.get16_setFlags]; rfl
  | move8 dst src =>
    simp [moveReg_eq, State.setRem_setFlags, State.setReg_setFlags, State.setFlags_setFlags]
  | unimpl i hi => simp only [exec_of_unimplemented i _ hi, unimplemented_eq]; rfl

/-- Settles O24: `exec_forgets_flags` is the statement, family by family. -/
theorem flagsAreNotRead : Obligations.FlagsAreNotRead := exec_forgets_flags

/-! ## What an instruction answers (R110 to R190) -/

/-- Each way an instruction can complete in a state, by family: which instruction it is, when, and the next state. -/
inductive Completes (s : State) : Instr → State → Prop
  | nop : Completes s .nop (s.setRem 0)
  | halt : Completes s .halt ((s.setHalted true).setRem 0)
  | ldPairImm (p : Pair) (v : Word) : Completes s (ldPairImmOf p v) ((s.set16 p v).setRem 2)
  | ldSpAlias (v : Word) : Completes s (.ldSpD16Alias v) ((s.set16 .sp v).setRem 2)
  | storeA (p : IndPair) (hin : (s.get16 (indPair p)).toNat < s.memSize) :
      Completes s (storeAOf p) ((s.setMem (s.mem.write (s.get16 (indPair p)).toNat s.a)).setRem 1)
  | loadA (p : IndPair) (hin : (s.get16 (indPair p)).toNat < s.memSize) :
      Completes s (loadAOf p) ((s.setReg .a (s.mem.read (s.get16 (indPair p)).toNat)).setRem 1)
  | incPair (p : Pair) : Completes s (incPairOf p) ((s.set16 p (s.get16 p + 1)).setRem 1)
  | decPair (p : Pair) : Completes s (decPairOf p) ((s.set16 p (s.get16 p - 1)).setRem 1)
  | addHl (p : Pair) :
      Completes s (addHlOf p)
        (((s.addFlags (s.get16 .hl) (s.get16 p)).set16 .hl (addSum (s.get16 .hl) (s.get16 p))).setRem 1)
  | incReg (r : Reg8) :
      Completes s (inc8Of (.reg r)) (((s.setReg r (s.getReg r + 1)).incFlags (s.getReg r)).setRem 0)
  | incIndHl (hin : (s.get16 .hl).toNat < s.memSize) :
      Completes s (inc8Of .indHl)
        (((s.setMem (s.mem.write (s.get16 .hl).toNat (s.mem.read (s.get16 .hl).toNat + 1))).incFlags
          (s.mem.read (s.get16 .hl).toNat)).setRem 0)
  | decReg (r : Reg8) :
      Completes s (dec8Of (.reg r)) (((s.setReg r (s.getReg r - 1)).decFlags (s.getReg r)).setRem 0)
  | decIndHl (hin : (s.get16 .hl).toNat < s.memSize) :
      Completes s (dec8Of .indHl)
        (((s.setMem (s.mem.write (s.get16 .hl).toNat (s.mem.read (s.get16 .hl).toNat - 1))).decFlags
          (s.mem.read (s.get16 .hl).toNat)).setRem 0)
  | ldRegImm (r : Reg8) (v : Byte) : Completes s (ldImm8Of (.reg r) v) ((s.setReg r v).setRem 1)
  | ldIndHlImm (v : Byte) (hin : (s.get16 .hl).toNat < s.memSize) :
      Completes s (ldImm8Of .indHl v) ((s.setMem (s.mem.write (s.get16 .hl).toNat v)).setRem 1)
  | move8 (dst src : Reg8) : Completes s (move8Of dst src) ((s.setReg dst (s.getReg src)).setRem 0)
  | unimpl (i : Instr) (hi : i.family = .unimplemented) : Completes s i (s.emit (opcodeByte i))

/-- A shared operation that answers by whether an address is inside the buffer answers a next state only when it is. -/
theorem next_of_ite {c : Prop} [Decidable c] {u t : State} {f : Fault}
    (h : (if c then Host.Outcome.next u else .fault f : Host.Outcome State Fault Refusal) = .next t) : c ∧ u = t := by
  by_cases hc : c
  · rw [if_pos hc, Host.Outcome.next.injEq] at h
    exact ⟨hc, h⟩
  · rw [if_neg hc] at h
    cases h

/-- Whatever next state an instruction answers, it completes in one of these ways. -/
theorem completes_of_exec {i : Instr} {s t : State} (h : exec i s = .next t) : Completes s i t := by
  induction i using instr_by_family with
  | nop => cases h; exact .nop
  | halt => cases h; exact .halt
  | ldPairImm p v => rw [exec_ldPairImmOf, loadPairImm_eq] at h; cases h; exact .ldPairImm p v
  | ldSpAlias v => cases h; exact .ldSpAlias v
  | storeA p =>
    rw [exec_storeAOf, storeAThrough_eq] at h
    obtain ⟨hin, rfl⟩ := next_of_ite h
    exact .storeA p hin
  | loadA p =>
    rw [exec_loadAOf, loadAThrough_eq] at h
    obtain ⟨hin, rfl⟩ := next_of_ite h
    exact .loadA p hin
  | incPair p => rw [exec_incPairOf, incPair_eq] at h; cases h; exact .incPair p
  | decPair p => rw [exec_decPairOf, decPair_eq] at h; cases h; exact .decPair p
  | addHl p => rw [exec_addHlOf, addHl_eq] at h; cases h; exact .addHl p
  | inc8 k =>
    cases k with
    | reg r => rw [exec_inc8Of, incSlot_reg_eq] at h; cases h; exact .incReg r
    | indHl =>
      rw [exec_inc8Of, incSlot_indHl_eq] at h
      obtain ⟨hin, rfl⟩ := next_of_ite h
      exact .incIndHl hin
  | dec8 k =>
    cases k with
    | reg r => rw [exec_dec8Of, decSlot_reg_eq] at h; cases h; exact .decReg r
    | indHl =>
      rw [exec_dec8Of, decSlot_indHl_eq] at h
      obtain ⟨hin, rfl⟩ := next_of_ite h
      exact .decIndHl hin
  | ldImm8 k v =>
    cases k with
    | reg r => rw [exec_ldImm8Of, loadSlotImm_reg_eq] at h; cases h; exact .ldRegImm r v
    | indHl =>
      rw [exec_ldImm8Of, loadSlotImm_indHl_eq] at h
      obtain ⟨hin, rfl⟩ := next_of_ite h
      exact .ldIndHlImm v hin
  | move8 dst src => rw [exec_move8Of, moveReg_eq] at h; cases h; exact .move8 dst src
  | unimpl i hi => rw [exec_of_unimplemented i s hi, unimplemented_eq] at h; cases h; exact .unimpl i hi

@[simp] theorem State.fZ_setMem (s : State) (m : Memory) : (s.setMem m).fZ = s.fZ := rfl

@[simp] theorem State.fN_setMem (s : State) (m : Memory) : (s.setMem m).fN = s.fN := rfl

@[simp] theorem State.fH_setMem (s : State) (m : Memory) : (s.setMem m).fH = s.fH := rfl

@[simp] theorem State.fC_setMem (s : State) (m : Memory) : (s.setMem m).fC = s.fC := rfl

@[simp] theorem State.rem_setMem (s : State) (m : Memory) : (s.setMem m).rem = s.rem := rfl

/-! ## The family of the instructions by their operands (R88) -/

@[simp] theorem family_ldPairImmOf (p : Pair) (v : Word) : (ldPairImmOf p v).family = .ldPairImm := by cases p <;> rfl

@[simp] theorem family_storeAOf (p : IndPair) : (storeAOf p).family = .storeA := by cases p <;> rfl

@[simp] theorem family_loadAOf (p : IndPair) : (loadAOf p).family = .loadA := by cases p <;> rfl

@[simp] theorem family_incPairOf (p : Pair) : (incPairOf p).family = .incPair := by cases p <;> rfl

@[simp] theorem family_decPairOf (p : Pair) : (decPairOf p).family = .decPair := by cases p <;> rfl

@[simp] theorem family_addHlOf (p : Pair) : (addHlOf p).family = .addHl := by cases p <;> rfl

@[simp] theorem family_inc8Of (k : Slot) : (inc8Of k).family = .inc8 := by
  rcases k with r | _ <;> [cases r <;> rfl; rfl]

@[simp] theorem family_dec8Of (k : Slot) : (dec8Of k).family = .dec8 := by
  rcases k with r | _ <;> [cases r <;> rfl; rfl]

@[simp] theorem family_ldImm8Of (k : Slot) (v : Byte) : (ldImm8Of k v).family = .ldImm8 := by
  rcases k with r | _ <;> [cases r <;> rfl; rfl]

@[simp] theorem family_move8Of (dst src : Reg8) : (move8Of dst src).family = .move8 := by
  cases dst <;> cases src <;> rfl

/-! ## Which flags are written (R31) -/

/-- Settles O23: of the ways to complete, only those that end in `addFlags`, `incFlags` or `decFlags` write a flag. -/
theorem flagWriters : Obligations.FlagWriters := by
  intro i s t h
  cases completes_of_exec h with
  | nop | halt | ldSpAlias => rfl
  | addHl => simp
  | incReg | incIndHl => simp
  | decReg | decIndHl => simp
  | ldPairImm | storeA | loadA | incPair | decPair | ldRegImm | ldIndHlImm | move8 => simp
  | unimpl _ hi => simp [hi]

/-! ## The declared costs (R247) -/

/-- Settles O38: all ways to complete but an unimplemented byte end in `setRem` of the cost minus one. -/
theorem declaredCosts : Obligations.DeclaredCosts := by
  intro i s t h
  cases completes_of_exec h with
  | ldPairImm => simp
  | ldSpAlias => rfl
  | storeA | loadA | incPair | decPair | addHl | ldRegImm | ldIndHlImm => simp
  | nop | halt => rfl
  | incReg | incIndHl | decReg | decIndHl | move8 => simp
  | unimpl _ hi => simp [hi]

/-! ## Which cells are written (R20, R24) -/

/-- The cells that hold a pair (R24). -/
def cellsOfPair : Pair → List Reg8
  | .bc => [.b, .c]
  | .de => [.d, .e]
  | .hl => [.h, .l]
  | .sp => []

theorem State.getReg_set16_of_notMem (s : State) {p : Pair} (v : Word) {r : Reg8} (h : r ∉ cellsOfPair p) :
    (s.set16 p v).getReg r = s.getReg r := by
  cases p with
  | bc => simp_all [cellsOfPair, State.set16_bc, State.getReg_setReg]
  | de => simp_all [cellsOfPair, State.set16_de, State.getReg_setReg]
  | hl => simp_all [cellsOfPair, State.set16_hl, State.getReg_setReg]
  | sp => exact s.getReg_setSp v r

theorem State.getReg_setReg_of_notMem (s : State) {q r : Reg8} (v : Byte) (h : r ∉ [q]) :
    (s.setReg q v).getReg r = s.getReg r := by
  rw [State.getReg_setReg, if_neg (by simpa using h)]

theorem destRegs_ldPairImmOf (p : Pair) (v : Word) : destRegs (ldPairImmOf p v) = cellsOfPair p := by cases p <;> rfl

theorem destRegs_incPairOf (p : Pair) : destRegs (incPairOf p) = cellsOfPair p := by cases p <;> rfl

theorem destRegs_decPairOf (p : Pair) : destRegs (decPairOf p) = cellsOfPair p := by cases p <;> rfl

theorem destRegs_addHlOf (p : Pair) : destRegs (addHlOf p) = cellsOfPair .hl := by cases p <;> rfl

theorem destRegs_loadAOf (p : IndPair) : destRegs (loadAOf p) = [.a] := by cases p <;> rfl

theorem destRegs_inc8Of_reg (r : Reg8) : destRegs (inc8Of (.reg r)) = [r] := by cases r <;> rfl

theorem destRegs_dec8Of_reg (r : Reg8) : destRegs (dec8Of (.reg r)) = [r] := by cases r <;> rfl

theorem destRegs_ldImm8Of_reg (r : Reg8) (v : Byte) : destRegs (ldImm8Of (.reg r) v) = [r] := by cases r <;> rfl

theorem destRegs_move8Of (dst src : Reg8) : destRegs (move8Of dst src) = [dst] := by cases dst <;> cases src <;> rfl

/-- A cell is written only as the destination slot or as a half of the destination pair. -/
theorem exec_next_getReg {i : Instr} {s t : State} (h : exec i s = .next t) {r : Reg8} (hr : r ∉ destRegs i) :
    t.getReg r = s.getReg r := by
  cases completes_of_exec h with
  | nop | halt | storeA | incIndHl | decIndHl | ldIndHlImm | unimpl => simp
  | ldSpAlias v => simp [s.getReg_set16_of_notMem (p := .sp) v List.not_mem_nil]
  | ldPairImm p v =>
    rw [destRegs_ldPairImmOf] at hr
    simp [s.getReg_set16_of_notMem _ hr]
  | incPair p =>
    rw [destRegs_incPairOf] at hr
    simp [s.getReg_set16_of_notMem _ hr]
  | decPair p =>
    rw [destRegs_decPairOf] at hr
    simp [s.getReg_set16_of_notMem _ hr]
  | addHl p =>
    rw [destRegs_addHlOf] at hr
    simp [State.getReg_set16_of_notMem _ _ hr]
  | loadA p =>
    rw [destRegs_loadAOf] at hr
    simp [s.getReg_setReg_of_notMem _ hr]
  | incReg q =>
    rw [destRegs_inc8Of_reg] at hr
    simp [s.getReg_setReg_of_notMem _ hr]
  | decReg q =>
    rw [destRegs_dec8Of_reg] at hr
    simp [s.getReg_setReg_of_notMem _ hr]
  | ldRegImm q v =>
    rw [destRegs_ldImm8Of_reg] at hr
    simp [s.getReg_setReg_of_notMem _ hr]
  | move8 dst src =>
    rw [destRegs_move8Of] at hr
    simp [s.getReg_setReg_of_notMem _ hr]

/-- Setting SP to what it is changes nothing, and setting it commutes with an instruction that does not use SP. -/
theorem exec_next_sp_of_not_uses {i : Instr} {s t : State} (hi : usesSp i = false) (h : exec i s = .next t) :
    t.sp = s.sp := by
  have hcomm : exec i s = onNext (·.setSp s.sp) (exec i s) := exec_setSp i s s.sp hi
  rw [h, onNext_next, Host.Outcome.next.injEq] at hcomm
  calc t.sp = (t.setSp s.sp).sp := congrArg State.sp hcomm
    _ = s.sp := rfl

/-- Settles O28: `exec_next_getReg` for the cells, and of the five forms that use SP only ADD HL,SP is not excepted; it keeps
SP. -/
theorem registerFrame : Obligations.RegisterFrame := by
  refine fun i s t h => ⟨fun r hr => exec_next_getReg h hr, fun hld halias hinc hdec => ?_⟩
  cases hi : usesSp i with
  | false => exact exec_next_sp_of_not_uses hi h
  | true =>
    obtain ⟨w, rfl⟩ | ⟨w, rfl⟩ | rfl | rfl | rfl := usesSp_cases i hi
    · exact absurd rfl (hld w)
    · exact absurd rfl (halias w)
    · exact absurd rfl hinc
    · exact absurd rfl hdec
    · cases h; rfl

end Sys2Proof.Machine
end

section
/-! PROOFS. The statements of 70_reset_and_hazards.md on the tick, the run loop and the invariant, and of 20_memory.md on a buffer
of 65536 bytes. -/

namespace Sys2Proof.Machine

/-! ## One turn of the run loop (R233, R234) -/

theorem step_of_ended {s : State} (h : s.ended = true) : step s = .next s := if_pos h

theorem step_of_running {s : State} (h : s.ended = false) : step s = tick s := by
  simp [step, runLoopStep, h]

theorem tick_of_latency {s : State} (h : 0 < s.rem) : tick s = .next (s.setRem (s.rem - 1)) := if_pos h

/-- Settles O8: the exit test passes and the tick burns one unit. -/
theorem stepBurnsLatency : Obligations.StepBurnsLatency := by
  intro s n hrun hrem
  rw [step_of_running hrun, tick_of_latency (by omega), hrem]
  rfl

theorem State.setRem_of_rem_eq {s : State} {n : Nat} (h : s.rem = n) : s.setRem n = s := by
  rw [← h]
  rfl

/-- A run that goes on burns its latency, however much is left, and comes to the same state without it. -/
theorem steps_burn_latency {n : Nat} {s : State} (hrun : s.ended = false) (hrem : s.rem = n) :
    steps n s = .next (s.setRem 0) := by
  induction n generalizing s with
  | zero => rw [State.setRem_of_rem_eq hrem]; rfl
  | succ n ih =>
    rw [steps, stepBurnsLatency s n hrun hrem]
    exact ih (s := s.setRem n) hrun rfl

theorem steps_of_ended {s : State} (h : s.ended = true) (n : Nat) : steps n s = .next s := by
  induction n with
  | zero => rfl
  | succ n ih => rw [steps, step_of_ended h]; exact ih

/-- Settles O10: either condition ends the run, and an ended run rests. -/
theorem endedRunRests : Obligations.EndedRunRests := fun s n h => steps_of_ended (by simpa [State.ended] using h) n

/-! ## An immediate byte outside the buffer (R53) -/

theorem Form.complete_eq_error_iff (f : Form) (tail : List Byte) (e : DecodeError) :
    f.complete tail = .error e ↔
      e = .missingImmediate ∧ ((∃ k, f = .imm8 k ∧ tail = []) ∨ (∃ k, f = .imm16 k ∧ tail = []) ∨
        ∃ k lo, f = .imm16 k ∧ tail = [lo]) := by
  fun_cases Form.complete f tail <;> simp [*, eq_comm]

theorem State.bytesFrom_eq_nil_iff (s : State) (n : Nat) (addr : Word) :
    s.bytesFrom (n + 1) addr = [] ↔ ¬ addr.toNat < s.memSize := by
  by_cases h : addr.toNat < s.memSize <;> simp [State.bytesFrom, h]

/-- The fetch of an immediate faults when its first byte is outside the buffer. -/
theorem State.fetchInstr_of_missing_first {s : State} (hopc : s.pc.toNat < s.memSize)
    (hmiss : ¬ (s.pc + 1).toNat < s.memSize) (hform : ∀ i, opcodeForm (s.mem.read s.pc.toNat) ≠ .plain i) :
    s.fetchInstr = .error (.memOutOfRange (s.pc + 1)) := by
  unfold State.fetchInstr
  rw [s.fetch8_of_lt hopc]
  simp only [bind, Except.bind]
  cases hf : opcodeForm (s.mem.read s.pc.toNat) with
  | plain i => exact absurd hf (hform i)
  | imm8 k => rw [(s.setPc (s.pc + 1)).fetch8_of_ge hmiss]; rfl
  | imm16 k => rw [(s.setPc (s.pc + 1)).fetch8_of_ge hmiss]; rfl

/-- The fetch of a 16-bit immediate faults at its high byte when that alone is outside the buffer. -/
theorem State.fetchInstr_of_missing_second {s : State} {k : Word → Instr} (hopc : s.pc.toNat < s.memSize)
    (hlo : (s.pc + 1).toNat < s.memSize) (hmiss : ¬ (s.pc + 1 + 1).toNat < s.memSize)
    (hform : opcodeForm (s.mem.read s.pc.toNat) = .imm16 k) :
    s.fetchInstr = .error (.memOutOfRange (s.pc + 1 + 1)) := by
  unfold State.fetchInstr
  rw [s.fetch8_of_lt hopc]
  simp only [bind, Except.bind, hform]
  rw [(s.setPc (s.pc + 1)).fetch8_of_lt hlo]
  simp only [State.pc_setPc]
  rw [((s.setPc (s.pc + 1)).setPc (s.pc + 1 + 1)).fetch8_of_ge hmiss]
  rfl

/-- Fetching byte by byte faults at the first byte that the decoder misses. -/
theorem State.fetchInstr_of_missingImmediate {s : State} (h : decode (s.bytesFrom 3 s.pc) = .error .missingImmediate) :
    s.fetchInstr = .error (.memOutOfRange (s.pc + BitVec.ofNat 16 (s.bytesFrom 3 s.pc).length)) := by
  have hopc : s.pc.toNat < s.memSize := by
    by_contra hout
    rw [State.bytesFrom, if_neg hout] at h
    cases h
  rw [State.bytesFrom_succ_of_lt 2 hopc, decode] at h
  rw [State.bytesFrom_succ_of_lt 2 hopc]
  obtain ⟨-, ⟨k, hform, htail⟩ | ⟨k, hform, htail⟩ | ⟨k, lo, hform, htail⟩⟩ := (Form.complete_eq_error_iff _ _ _).mp h
  · rw [htail]
    exact State.fetchInstr_of_missing_first hopc ((s.bytesFrom_eq_nil_iff 1 _).mp htail) (by simp [hform])
  · rw [htail]
    exact State.fetchInstr_of_missing_first hopc ((s.bytesFrom_eq_nil_iff 1 _).mp htail) (by simp [hform])
  · rw [htail]
    obtain ⟨hlo, -, htail'⟩ := State.bytesFrom_eq_cons htail
    rw [State.fetchInstr_of_missing_second hopc hlo ((s.bytesFrom_eq_nil_iff 0 _).mp htail') hform, BitVec.add_assoc]
    rfl

theorem tick_of_fetchInstr_error {s : State} {f : Fault} (hrem : s.rem = 0) (h : s.fetchInstr = .error f) :
    tick s = .fault f := by
  simp [tick, hrem, h]

/-- Settles O9: the fetching tick faults where the fetch does. -/
theorem stepFaultsOnMissingImmediate : Obligations.StepFaultsOnMissingImmediate := by
  intro s hrun hrem hmiss
  rw [step_of_running hrun]
  exact tick_of_fetchInstr_error hrem (State.fetchInstr_of_missingImmediate hmiss)

/-! ## What every step keeps (R241, R249) -/

/-- Settles O17: a step rests, burns latency, or executes an instruction, which keeps the capacity. -/
theorem capacityNeverChanges : Obligations.CapacityNeverChanges := by
  intro s t h
  obtain ⟨-, rfl⟩ | ⟨-, -, rfl⟩ | ⟨-, -, i, n, -, -, -, hexec⟩ := step_next_inv s t h
  · rfl
  · rfl
  · obtain ⟨-, hsize, -⟩ := exec_next_inv i _ t hexec
    exact hsize

/-- One byte written inside the buffer, or none, keeps the canonical form and lists nothing outside the buffer. -/
theorem Memory.sound_of_write {n : Nat} {m k : Memory} (hwf : m.wf = true) (hinside : m.inside n = true)
    (h : k = m ∨ ∃ (a : Nat) (v : Byte), a < n ∧ k = m.write a v) : k.wf = true ∧ k.inside n = true := by
  obtain rfl | ⟨a, v, ha, rfl⟩ := h
  · exact ⟨hwf, hinside⟩
  · exact ⟨m.wf_write a v hwf, m.inside_write n a v ha hinside⟩

/-- Settles O16: `exec_next_inv` keeps every clause but that on PC, which `pc_after_fetch` gives. -/
theorem stepKeepsInvariant : Obligations.StepKeepsInvariant := by
  rintro s t hs h
  obtain ⟨-, rfl⟩ | ⟨-, -, rfl⟩ | ⟨hrun, hrem, i, n, h1, h3, hin, hexec⟩ := step_next_inv s t h
  · exact hs
  · obtain ⟨hsize, hwf, hinside, hlat, hhalt, hpc⟩ := hs
    exact ⟨hsize, hwf, hinside, (Nat.sub_le ..).trans hlat, fun hh => by simp [hhalt hh], hpc⟩
  · obtain ⟨⟨hpos, hmax⟩, hwf, hinside, -⟩ := hs
    obtain ⟨hpc', hsize', hmem', hrem', hhalt'⟩ := exec_next_inv i _ t hexec
    obtain ⟨hwf', hinside'⟩ := Memory.sound_of_write hwf hinside hmem'
    obtain ⟨hnot, -⟩ := s.ended_eq_false_iff.mp hrun
    have hpc : (s.pc + BitVec.ofNat 16 n).toNat ≤ s.memSize := (pc_after_fetch s n h1 h3 hmax hin).1
    simp only [State.memSize_setPc, State.pc_setPc, State.rem_setPc, State.halted_setPc] at hpc' hsize' hrem' hhalt'
    rw [State.Inv, hsize', hpc']
    exact ⟨⟨hpos, hmax⟩, hwf', hinside', by omega, fun hh => (hhalt' hh).resolve_left (by simp [hnot]), hpc⟩

/-- What every step keeps holds after any number of steps. -/
theorem steps_keep {P : State → Prop} (hstep : ∀ s t, P s → step s = .next t → P t) {n : Nat} {s t : State} (hs : P s)
    (h : steps n s = .next t) : P t := by
  induction n generalizing s with
  | zero => cases h; exact hs
  | succ n ih =>
    rw [steps] at h
    cases hu : step s with
    | next u => rw [hu] at h; exact ih (hstep s u hs hu) h
    | fault f => rw [hu] at h; cases h
    | refused r => rw [hu] at h; cases h

/-! ## A buffer of 65536 bytes (R53) -/

/-- With every address inside the buffer, the fetch of an instruction reads all its bytes. -/
theorem State.fetchInstr_of_full {s : State} (h : s.memSize = 65536) : ∃ i w, s.fetchInstr = .ok (i, s.setPc w) := by
  have hin : ∀ w : Word, w.toNat < s.memSize := fun w => h ▸ w.isLt
  cases hform : opcodeForm (s.mem.read s.pc.toNat) with
  | plain i => exact ⟨_, _, State.fetchInstr_of_plain (hin _) hform⟩
  | imm8 k => exact ⟨_, _, State.fetchInstr_of_imm8 (hin _) (hin _) hform⟩
  | imm16 k => exact ⟨_, _, State.fetchInstr_of_imm16 (hin _) (hin _) (hin _) hform⟩

theorem step_of_full {s : State} (h : s.memSize = 65536) : ∃ t, step s = .next t := by
  cases hrun : s.ended with
  | true => exact ⟨s, step_of_ended hrun⟩
  | false =>
    obtain hrem | hrem := Nat.eq_zero_or_pos s.rem
    · obtain ⟨i, w, hfetch⟩ := State.fetchInstr_of_full h
      rw [step_of_fetchInstr hrun hrem hfetch]
      exact everyInstructionCompletes i _ fun a _ => h ▸ a.isLt
    · exact ⟨_, (step_of_running hrun).trans (tick_of_latency hrem)⟩

/-- Settles O37, by induction on the number of steps: each completes, and the capacity stays 65536. -/
theorem fullMemoryNeverFaults : Obligations.FullMemoryNeverFaults := by
  intro n
  induction n with
  | zero => exact fun s _ => ⟨s, rfl⟩
  | succ n ih =>
    intro s h
    obtain ⟨t, ht⟩ := step_of_full h
    rw [steps, ht]
    exact ih t ((capacityNeverChanges s t ht).trans h)

/-! ## The entry of a run (R43, R45) -/

/-- Settles O14: entering a run overwrites the flag, and a run that stopped with it false is entered as it stands. -/
theorem runEntryClearsOnlyHalted : Obligations.RunEntryClearsOnlyHalted := by
  refine ⟨fun s => rfl, fun n s v => rfl, fun m n s t h hrun => ?_⟩
  have henter : t.enterRun = t := by rw [State.enterRun, ← hrun]; rfl
  rw [runN] at h
  rw [runN, runN, henter, steps_add, h]

/-! ## The end of a run (R236) -/

theorem State.enterRun_inv {s : State} (h : s.Inv) : s.enterRun.Inv := by
  obtain ⟨hsize, hwf, hinside, hlat, -, hpc⟩ := h
  exact ⟨hsize, hwf, hinside, hlat, nofun, hpc⟩

/-- Settles O42: the last state meets the invariant, and each of the two ends is read off it. -/
theorem runEndsHaltedOrOverrun : Obligations.RunEndsHaltedOrOverrun := by
  rintro s t hs ⟨n, h, hend⟩
  obtain ⟨-, -, -, -, hhalt, hpc⟩ := steps_keep stepKeepsInvariant (State.enterRun_inv hs) h
  cases hh : t.halted with
  | true => exact .inl ⟨rfl, hhalt hh⟩
  | false =>
    have hover : t.memSize ≤ t.pc.toNat := by simpa [State.ended, hh] using hend
    have hword : t.pc.toNat < 65536 := t.pc.isLt
    exact .inr ⟨rfl, by omega, by omega⟩

/-! ## Every run in a smaller buffer ends (R241) -/

/-- A bound on the ticks a run still takes: three for each byte up to the end of the buffer, and the latency left. -/
def State.ticksLeft (s : State) : Nat := 3 * (s.memSize - s.pc.toNat) + s.rem

/-- In a buffer below 65536 PC does not wrap, so a fetching tick moves it on by a byte at least and schedules two ticks at
most. -/
theorem step_lowers_ticksLeft {s t : State} (hsize : s.memSize < 65536) (hrun : s.ended = false) (h : step s = .next t) :
    t.ticksLeft < s.ticksLeft := by
  obtain ⟨hend, -⟩ | ⟨-, hrem, rfl⟩ | ⟨-, hrem, i, n, h1, h3, hin, hexec⟩ := step_next_inv s t h
  · rw [hrun] at hend
    cases hend
  · simp only [State.ticksLeft, State.memSize_setRem, State.pc_setRem, State.rem_setRem]
    omega
  · obtain ⟨hpc, hsize', -, hlat, -⟩ := exec_next_inv i _ t hexec
    obtain ⟨hle, hnowrap⟩ := pc_after_fetch s n h1 h3 hsize.le hin
    have hadd : (s.pc + BitVec.ofNat 16 n).toNat = s.pc.toNat + n := hnowrap hsize
    simp only [State.memSize_setPc, State.pc_setPc, State.rem_setPc] at hpc hsize' hlat
    rw [State.ticksLeft, State.ticksLeft, hpc, hsize', hadd]
    omega

theorem step_ne_refused (s : State) (r : Refusal) : step s ≠ .refused r := by
  unfold step runLoopStep tick
  split
  · nofun
  · split
    · nofun
    · split
      · exact exec_ne_refused _ _ r
      · nofun

/-- By induction on the bound: a state with no tick left is past the end of the buffer. -/
theorem steps_end_within {n : Nat} {s : State} (hsize : s.memSize < 65536) (hn : s.ticksLeft ≤ n) :
    (∃ f, steps n s = .fault f) ∨ ∃ t, steps n s = .next t ∧ t.ended = true := by
  cases hrun : s.ended with
  | true => exact .inr ⟨s, steps_of_ended hrun n, hrun⟩
  | false =>
    induction n generalizing s with
    | zero =>
      have hin := (s.ended_eq_false_iff.mp hrun).2
      rw [State.ticksLeft] at hn
      omega
    | succ n ih =>
      rw [steps]
      cases ht : step s with
      | next t =>
        have hlower := step_lowers_ticksLeft hsize hrun ht
        have hsize' : t.memSize < 65536 := capacityNeverChanges s t ht ▸ hsize
        cases hrun' : t.ended with
        | true => exact .inr ⟨t, steps_of_ended hrun' n, hrun'⟩
        | false => exact ih hsize' (by omega) hrun'
      | fault f => exact .inl ⟨f, rfl⟩
      | refused r => exact absurd ht (step_ne_refused s r)

/-- Settles O41: entering the run leaves the bound as it is. -/
theorem smallMemoryRunsEnd : Obligations.SmallMemoryRunsEnd := fun s hsize =>
  steps_end_within (s := s.enterRun) hsize le_rfl

/-! ## Ticks and the declared cost (R237, R247) -/

/-- A wired instruction schedules its declared cost, less the fetching tick. -/
theorem exec_next_rem_of_cost {i : Instr} {s t : State} {c : Nat} (hcost : i.family.cost = some c)
    (h : exec i s = .next t) : c = 1 + t.rem := by
  have hrem := declaredCosts i s t h
  cases hf : i.family with
  | unimplemented => rw [hf] at hcost; cases hcost
  | _ =>
    rw [hf] at hrem hcost
    cases hcost
    exact congrArg (1 + ·) hrem.symm

/-- Settles O39: one fetching tick, and then the latency it scheduled is burned. -/
theorem ticksEqualDeclaredCost : Obligations.TicksEqualDeclaredCost := by
  intro s t i rest c hrun hrem hdecode hcost ht hrun'
  have hexec := (stepRunsDecodedInstruction s i rest hrun hrem hdecode).symm.trans ht
  rw [exec_next_rem_of_cost hcost hexec, Nat.add_comm, steps, ht]
  exact steps_burn_latency hrun' rfl

/-! ## The instruction-level view (R237) -/

theorem onNext_eq_next_iff (g : State → State) (o : Host.Outcome State Fault Refusal) (t : State) :
    onNext g o = .next t ↔ ∃ u, o = .next u ∧ g u = t := by
  cases o <;> simp [onNext]

theorem onNext_eq_fault_iff (g : State → State) (o : Host.Outcome State Fault Refusal) (f : Fault) :
    onNext g o = .fault f ↔ o = .fault f := by
  cases o <;> simp [onNext]

theorem instrStep_of_ended {s : State} (h : s.ended = true) : instrStep s = .next s := if_pos h

/-- In a run that goes on, the instruction-level step is a fetching tick without the latency it schedules. -/
theorem instrStep_of_running {s : State} (h : s.ended = false) :
    instrStep s = onNext (·.setRem 0) (tick (s.setRem 0)) := by
  rw [instrStep, if_neg (by simp [h])]
  cases tick (s.setRem 0) <;> rfl

theorem instrSteps_succ_of_next {s t : State} (h : instrStep s = .next t) (m : Nat) :
    instrSteps (m + 1) s = instrSteps m t := by
  rw [instrSteps, h]

theorem instrSteps_of_ended {s : State} (h : s.ended = true) (m : Nat) : instrSteps m s = .next s := by
  induction m with
  | zero => rfl
  | succ m ih => rw [instrSteps_succ_of_next (instrStep_of_ended h), ih]

/-- Ticks are matched by instruction-level steps: a latency tick by none, a fetching tick by one. -/
theorem exists_instrSteps_of_steps (n : Nat) (s : State) :
    ∃ m, m ≤ n ∧ instrSteps m (s.setRem 0) = onNext (·.setRem 0) (steps n s) := by
  induction n generalizing s with
  | zero => exact ⟨0, le_rfl, rfl⟩
  | succ n ih =>
    cases hrun : s.ended with
    | true =>
      rw [steps_of_ended hrun]
      exact ⟨0, Nat.zero_le _, rfl⟩
    | false =>
      rw [steps, step_of_running hrun]
      obtain hrem | hrem := Nat.eq_zero_or_pos s.rem
      · have hinstr := instrStep_of_running hrun
        rw [State.setRem_of_rem_eq hrem] at hinstr ⊢
        cases ht : tick s with
        | next t =>
          rw [ht] at hinstr
          obtain ⟨m, hm, heq⟩ := ih t
          exact ⟨m + 1, by omega, (instrSteps_succ_of_next hinstr m).trans heq⟩
        | fault f => rw [ht] at hinstr; exact ⟨1, by omega, by rw [instrSteps, hinstr]; rfl⟩
        | refused r => rw [ht] at hinstr; exact ⟨1, by omega, by rw [instrSteps, hinstr]; rfl⟩
      · rw [tick_of_latency hrem]
        obtain ⟨m, hm, heq⟩ := ih (s.setRem (s.rem - 1))
        exact ⟨m, by omega, heq⟩

/-- Instruction-level steps are matched by ticks: the latency left is burned, and then a fetching tick follows. -/
theorem exists_steps_of_instrSteps (m : Nat) (s : State) :
    ∃ n, onNext (·.setRem 0) (steps n s) = instrSteps m (s.setRem 0) := by
  induction m generalizing s with
  | zero => exact ⟨0, rfl⟩
  | succ m ih =>
    cases hrun : s.ended with
    | true => exact ⟨0, (instrSteps_of_ended (s := s.setRem 0) hrun _).symm⟩
    | false =>
      have hinstr : instrStep (s.setRem 0) = onNext (·.setRem 0) (tick (s.setRem 0)) := instrStep_of_running hrun
      have htick : step (s.setRem 0) = tick (s.setRem 0) := step_of_running hrun
      have hburn : ∀ k, steps (s.rem + k) s = steps k (s.setRem 0) := fun k => by
        rw [steps_add, steps_burn_latency hrun rfl]
      cases ht : tick (s.setRem 0) with
      | next t =>
        obtain ⟨n, hn⟩ := ih t
        refine ⟨s.rem + (n + 1), ?_⟩
        rw [ht] at hinstr
        rw [hburn, steps, htick, ht, instrSteps_succ_of_next hinstr]
        exact hn
      | fault f => exact ⟨s.rem + 1, by rw [hburn, steps, htick, instrSteps, hinstr, ht]; rfl⟩
      | refused r => exact ⟨s.rem + 1, by rw [hburn, steps, htick, instrSteps, hinstr, ht]; rfl⟩

/-- Settles O40: the two matching laws, read off for a next state and for a fault. -/
theorem timingChangesNoResult : Obligations.TimingChangesNoResult := by
  refine ⟨fun n s => ?_, fun m s => ?_⟩
  · obtain ⟨m, hm, heq⟩ := exists_instrSteps_of_steps n s
    exact ⟨fun t h => ⟨m, hm, by rw [heq, h]; rfl⟩, fun f h => ⟨m, hm, by rw [heq, h]; rfl⟩⟩
  · obtain ⟨n, heq⟩ := exists_steps_of_instrSteps m s
    refine ⟨fun t h => ?_, fun f h => ⟨n, ?_⟩⟩
    · obtain ⟨u, hu, rfl⟩ := (onNext_eq_next_iff _ _ t).mp (heq.trans h)
      exact ⟨n, u, hu, rfl⟩
    · exact (onNext_eq_fault_iff _ _ f).mp (heq.trans h)

end Sys2Proof.Machine
end
